-- ==== Sys2Proof/Word.lean ====
section
/-! DEFINITION. The word types of the hardware (spec/00_scope.md R7, R10; spec/30_encoding.md R71).
All values are unsigned; no instruction interprets one as signed (R10). -/

namespace Sys2Proof

/-- A memory byte, a general register, a timer or an immediate `nn` (R7: REG_BITS, TIMER_BITS are 8). -/
abbrev Byte := BitVec 8

/-- A 4-bit instruction field: a register number `x`, `y` or a row count `n` (R71). -/
abbrev Nibble := BitVec 4

/-- A 12-bit address: the program counter and the field `nnn` (R7: ADDR_BITS, PC_BITS are 12). -/
abbrev Addr := BitVec 12

/-- A fetched instruction word (R7: OPCODE_BITS is 16; R70). -/
abbrev Opcode := BitVec 16

/-- The index register and a stack entry (R7: I_BITS, STACK_ENTRY_BITS are 16). -/
abbrev Word := BitVec 16

end Sys2Proof
end

