-- ==== Sys2Proof/Machine/Flags.lean ====
section
/-! DEFINITION. The values VF takes as a flag (spec/10_state.md R25; spec/42_alu.md R134), from the operands as they were before
the instruction's first write (R133). -/

namespace Sys2Proof.Machine

/-- A flag as the byte VF holds. -/
def flagByte (b : Bool) : Byte := if b then 1 else 0

/-- Carry out of `8xy4`: 1 if a + b > 255 (R126). -/
def carryFlag (a b : Byte) : Byte := flagByte (decide (a.toNat + b.toNat > 255))

/-- No borrow of `a - b`: 1 if a >= b (R127; R129 with the operands exchanged). -/
def noBorrowFlag (a b : Byte) : Byte := flagByte (decide (a.toNat ≥ b.toNat))

/-- The bit shifted out by `8xy6`: old bit 0 (R128). -/
def shiftedOutLow (a : Byte) : Byte := a &&& 1

/-- The bit shifted out by `8xyE`: old bit 7 (R130). -/
def shiftedOutHigh (a : Byte) : Byte := a >>> 7

end Sys2Proof.Machine
end

