-- ==== Sys2Proof/Config.lean ====
section
/-! DEFINITION. What is fixed for the machine and what stays open (spec/00_scope.md R7, R8).
FONT_BASE and the default of the parameter FONT_ROM stand in
Sys2Proof/Machine/Font.lean; a machine's own FONT_ROM is the field `fontRom` of its state. -/

namespace Sys2Proof.Config

/-- PROGRAM_BASE (R7): the address a program image is loaded from, and the entry point (R212). -/
abbrev programBase : Nat := 0x200

/-- How many bytes of image fit between PROGRAM_BASE and the end of memory (spec/20_memory.md R63: offsets 0..3583). -/
abbrev imageBytes : Nat := 3584

/-- The random source behind the RND input (R8; spec/42_alu.md R131; decision D30): a FREE VALUE.
It has no body, so nothing can be proved of the byte of any draw. It is applied to the number of draws so far, so that two
draws are unrelated. Log entry 3. -/
opaque rndByte : Nat → Byte

end Sys2Proof.Config
end

