-- ==== Sys2Proof/Machine/HostAction.lean ====
section
/-! DEFINITION. The inputs of the core (spec/10_state.md R38): what the host can do between two ticks. Their effects stand in
Sys2Proof/Machine/HostPort.lean. -/

namespace Sys2Proof.Machine

/-- One input of the core (R38). Key codes and load offsets are numbers, since the spec refuses those out of range
(spec/45_keys_timers.md R178; spec/20_memory.md R63) instead of giving them a width. -/
inductive HostAction where
  | tick                            -- TICK: run one tick
  | reset                           -- RESET
  | keyPress (k : Nat)              -- KEY_PRESS(k)
  | keyRelease (k : Nat)            -- KEY_RELEASE(k)
  | load (offset : Nat) (b : Byte)  -- LOAD(offset, byte)
  | rnd (b : Byte)                  -- a byte on the RND input
  deriving DecidableEq, Repr

end Sys2Proof.Machine
end

