-- ==== Sys2Proof/Syntax.lean ====
section
/-! DEFINITION. The instruction set (spec/30_encoding.md R75): one constructor per row of the opcode map, in its order. -/

namespace Sys2Proof

/-- The 34 instructions (R2, R75). Operands are the fields of R71 at their exact widths: `x`, `y`, `n` four bits, `nn` eight,
`nnn` twelve. `shr` and `shl` keep the `y` field, which is decoded and has no effect (R73). -/
inductive Instr where
  | cls                              -- 00E0
  | ret                              -- 00EE
  | jp (nnn : Addr)                  -- 1nnn
  | call (nnn : Addr)                -- 2nnn
  | seByte (x : Nibble) (nn : Byte)  -- 3xnn
  | sneByte (x : Nibble) (nn : Byte) -- 4xnn
  | seReg (x y : Nibble)             -- 5xy0
  | ldByte (x : Nibble) (nn : Byte)  -- 6xnn
  | addByte (x : Nibble) (nn : Byte) -- 7xnn
  | ldReg (x y : Nibble)             -- 8xy0
  | orReg (x y : Nibble)             -- 8xy1
  | andReg (x y : Nibble)            -- 8xy2
  | xorReg (x y : Nibble)            -- 8xy3
  | addReg (x y : Nibble)            -- 8xy4
  | subReg (x y : Nibble)            -- 8xy5
  | shr (x y : Nibble)               -- 8xy6
  | subnReg (x y : Nibble)           -- 8xy7
  | shl (x y : Nibble)               -- 8xyE
  | sneReg (x y : Nibble)            -- 9xy0
  | ldI (nnn : Addr)                 -- Annn
  | jpV0 (nnn : Addr)                -- Bnnn
  | rnd (x : Nibble) (nn : Byte)     -- Cxnn
  | drw (x y n : Nibble)             -- Dxyn
  | skp (x : Nibble)                 -- Ex9E
  | sknp (x : Nibble)                -- ExA1
  | ldVxDt (x : Nibble)              -- Fx07
  | ldVxK (x : Nibble)               -- Fx0A
  | ldDtVx (x : Nibble)              -- Fx15
  | ldStVx (x : Nibble)              -- Fx18
  | addI (x : Nibble)                -- Fx1E
  | ldF (x : Nibble)                 -- Fx29
  | ldB (x : Nibble)                 -- Fx33
  | storeRegs (x : Nibble)           -- Fx55
  | loadRegs (x : Nibble)            -- Fx65
  deriving DecidableEq, Repr

end Sys2Proof
end

