-- ==== Sys2Proof/WellFormed.lean ====
section
/-! DEFINITION. Well-formed terms: an instruction's fields fit the widths of spec/30_encoding.md R71; a host action's numbers
are in the ranges the spec admits (spec/20_memory.md R63; spec/45_keys_timers.md R178). -/

namespace Sys2Proof

/-- The operand fields of an instruction: each field's value and its width in bits (R71). -/
def Instr.fields : Instr → List (Nat × Nat)
  | .cls | .ret => []
  | .jp nnn | .call nnn | .ldI nnn | .jpV0 nnn => [(nnn.toNat, 12)]
  | .seByte x nn | .sneByte x nn | .ldByte x nn | .addByte x nn | .rnd x nn => [(x.toNat, 4), (nn.toNat, 8)]
  | .seReg x y | .ldReg x y | .orReg x y | .andReg x y | .xorReg x y | .addReg x y | .subReg x y | .shr x y
  | .subnReg x y | .shl x y | .sneReg x y => [(x.toNat, 4), (y.toNat, 4)]
  | .drw x y n => [(x.toNat, 4), (y.toNat, 4), (n.toNat, 4)]
  | .skp x | .sknp x | .ldVxDt x | .ldVxK x | .ldDtVx x | .ldStVx x | .addI x | .ldF x | .ldB x | .storeRegs x
  | .loadRegs x => [(x.toNat, 4)]

/-- Whether a value fits a field of that many bits. -/
def fieldFits (f : Nat × Nat) : Bool := f.1 < 2 ^ f.2

/-- An instruction is well-formed when every operand fits its field. The types of `Instr` see to it, so every term is
(`Instr.wf_all` in Sys2Proof/Laws/Decode.lean): the check of one field, `fieldFits`, is the one that can refuse. -/
def Instr.wf (i : Instr) : Bool := i.fields.all fieldFits

/-- The range check of a host action: key codes 0x0 to 0xF (R178), load offsets 0 to 3583 (R63). -/
def Machine.HostAction.wf : Machine.HostAction → Bool
  | .tick | .reset | .rnd _ => true
  | .keyPress k | .keyRelease k => k < 16
  | .load offset _ => offset < Config.imageBytes

end Sys2Proof
end

