-- ==== Sys2Proof/Decode.lean ====
section
/-! DEFINITION. Decoding and encoding (spec/30_encoding.md R70 to R79). `decodeWord` reads the fields of R71 and dispatches on
the literal digits of R75; `opcodeMap` is the table of R75 itself, with which Sys2Proof/Certificates states it agrees. -/

namespace Sys2Proof

/-! ### The fields of a word (R71) -/

/-- `a`, bits 15..12: the row group. -/
def opA (op : Opcode) : Nibble := op.extractLsb' 12 4
/-- `x`, bits 11..8. -/
def opX (op : Opcode) : Nibble := op.extractLsb' 8 4
/-- `y`, bits 7..4. -/
def opY (op : Opcode) : Nibble := op.extractLsb' 4 4
/-- `n`, bits 3..0. -/
def opN (op : Opcode) : Nibble := op.extractLsb' 0 4
/-- `nn`, bits 7..0. -/
def opNN (op : Opcode) : Byte := op.extractLsb' 0 8
/-- `nnn`, bits 11..0. -/
def opNNN (op : Opcode) : Addr := op.extractLsb' 0 12

/-! ### Decode (R74, R76, R77) -/

/-- The `8xy_` group: the function nibble selects the row; 8 to D and F match none (R76). -/
def decode8 (op : Opcode) : Option Instr :=
  match (opN op).toNat with
  | 0x0 => some (.ldReg (opX op) (opY op))
  | 0x1 => some (.orReg (opX op) (opY op))
  | 0x2 => some (.andReg (opX op) (opY op))
  | 0x3 => some (.xorReg (opX op) (opY op))
  | 0x4 => some (.addReg (opX op) (opY op))
  | 0x5 => some (.subReg (opX op) (opY op))
  | 0x6 => some (.shr (opX op) (opY op))
  | 0x7 => some (.subnReg (opX op) (opY op))
  | 0xE => some (.shl (opX op) (opY op))
  | _ => none

/-- The `Ex__` group: the function byte selects the row (R76). -/
def decodeE (op : Opcode) : Option Instr :=
  match (opNN op).toNat with
  | 0x9E => some (.skp (opX op))
  | 0xA1 => some (.sknp (opX op))
  | _ => none

/-- The `Fx__` group: the function byte selects the row (R76). -/
def decodeF (op : Opcode) : Option Instr :=
  match (opNN op).toNat with
  | 0x07 => some (.ldVxDt (opX op))
  | 0x0A => some (.ldVxK (opX op))
  | 0x15 => some (.ldDtVx (opX op))
  | 0x18 => some (.ldStVx (opX op))
  | 0x1E => some (.addI (opX op))
  | 0x29 => some (.ldF (opX op))
  | 0x33 => some (.ldB (opX op))
  | 0x55 => some (.storeRegs (opX op))
  | 0x65 => some (.loadRegs (opX op))
  | _ => none

/-- The `0___` group: `00E0` and `00EE` only; the canonical `0nnn` is unsupported (R76; spec/90_conflicts.md C1). -/
def decode0 (op : Opcode) : Option Instr :=
  match (opNNN op).toNat with
  | 0x0E0 => some .cls
  | 0x0EE => some .ret
  | _ => none

/-- A row that is selected only when its literal last digit is 0 (`5xy0`, `9xy0`; R74, R76). -/
def decodeXY0 (op : Opcode) (i : Instr) : Option Instr :=
  if (opN op).toNat = 0 then some i else none

/-- The instruction a word is, or none where it is an unsupported opcode (R74, R77). -/
def decodeWord (op : Opcode) : Option Instr :=
  match (opA op).toNat with
  | 0x0 => decode0 op
  | 0x1 => some (.jp (opNNN op))
  | 0x2 => some (.call (opNNN op))
  | 0x3 => some (.seByte (opX op) (opNN op))
  | 0x4 => some (.sneByte (opX op) (opNN op))
  | 0x5 => decodeXY0 op (.seReg (opX op) (opY op))
  | 0x6 => some (.ldByte (opX op) (opNN op))
  | 0x7 => some (.addByte (opX op) (opNN op))
  | 0x8 => decode8 op
  | 0x9 => decodeXY0 op (.sneReg (opX op) (opY op))
  | 0xA => some (.ldI (opNNN op))
  | 0xB => some (.jpV0 (opNNN op))
  | 0xC => some (.rnd (opX op) (opNN op))
  | 0xD => some (.drw (opX op) (opY op) (opN op))
  | 0xE => decodeE op
  | _ => decodeF op

/-- Why bytes are no instruction. A tick never sees `truncated`: it always fetches two bytes (R70). -/
inductive Reject where
  /-- The word matches no row of the opcode map: UnsupportedOpcode (R76). -/
  | unsupported (op : Opcode)
  /-- Fewer than two bytes were given (R70: a decoder always consumes exactly two). -/
  | truncated
  deriving DecidableEq, Repr

/-- The word of two bytes, the first in the high half (spec/20_memory.md R52). -/
def wordOfBytes (hi lo : Byte) : Opcode := hi ++ lo

/-- Decode the first instruction of a byte sequence and give the rest of it. -/
def decodeBytes : List Byte → Except Reject (Instr × List Byte)
  | hi :: lo :: rest =>
    match decodeWord (wordOfBytes hi lo) with
    | some i => .ok (i, rest)
    | none => .error (.unsupported (wordOfBytes hi lo))
  | _ => .error .truncated

/-- The two bytes of a word as memory holds them, the high byte at the lower address (R52, R79). -/
def bytesOfWord (op : Opcode) : List Byte := [op.extractLsb' 8 8, op.extractLsb' 0 8]

/-- The word a table number stands for: one word, every bit above `nbits` being 0. -/
def tableWord (nbits w : Nat) : Opcode := BitVec.ofNat 16 (w % 2 ^ nbits)

/-- The instruction the decoder reads from the word `w` of the opcode table, laid out as memory holds it. -/
def decodeTableWord (nbits w : Nat) : Option Instr :=
  match decodeBytes (bytesOfWord (tableWord nbits w)) with
  | .ok (i, _) => some i
  | .error _ => none

/-! ### Encode (R72, R75, R79) -/

/-- Format NNN (R72). -/
def wordNNN (a : Nibble) (nnn : Addr) : Opcode := a ++ nnn
/-- Formats XNN and XFF: the low byte is an immediate or a function byte (R72). -/
def wordXNN (a x : Nibble) (nn : Byte) : Opcode := a ++ (x ++ nn)
/-- Formats XYF and XYN: the low nibble is a function nibble or a row count (R72). -/
def wordXYN (a x y n : Nibble) : Opcode := a ++ (x ++ (y ++ n))

/-- The one word of an instruction (R79). -/
def encode : Instr → Opcode
  | .cls => 0x00E0
  | .ret => 0x00EE
  | .jp nnn => wordNNN 0x1 nnn
  | .call nnn => wordNNN 0x2 nnn
  | .seByte x nn => wordXNN 0x3 x nn
  | .sneByte x nn => wordXNN 0x4 x nn
  | .seReg x y => wordXYN 0x5 x y 0x0
  | .ldByte x nn => wordXNN 0x6 x nn
  | .addByte x nn => wordXNN 0x7 x nn
  | .ldReg x y => wordXYN 0x8 x y 0x0
  | .orReg x y => wordXYN 0x8 x y 0x1
  | .andReg x y => wordXYN 0x8 x y 0x2
  | .xorReg x y => wordXYN 0x8 x y 0x3
  | .addReg x y => wordXYN 0x8 x y 0x4
  | .subReg x y => wordXYN 0x8 x y 0x5
  | .shr x y => wordXYN 0x8 x y 0x6
  | .subnReg x y => wordXYN 0x8 x y 0x7
  | .shl x y => wordXYN 0x8 x y 0xE
  | .sneReg x y => wordXYN 0x9 x y 0x0
  | .ldI nnn => wordNNN 0xA nnn
  | .jpV0 nnn => wordNNN 0xB nnn
  | .rnd x nn => wordXNN 0xC x nn
  | .drw x y n => wordXYN 0xD x y n
  | .skp x => wordXNN 0xE x 0x9E
  | .sknp x => wordXNN 0xE x 0xA1
  | .ldVxDt x => wordXNN 0xF x 0x07
  | .ldVxK x => wordXNN 0xF x 0x0A
  | .ldDtVx x => wordXNN 0xF x 0x15
  | .ldStVx x => wordXNN 0xF x 0x18
  | .addI x => wordXNN 0xF x 0x1E
  | .ldF x => wordXNN 0xF x 0x29
  | .ldB x => wordXNN 0xF x 0x33
  | .storeRegs x => wordXNN 0xF x 0x55
  | .loadRegs x => wordXNN 0xF x 0x65

/-! ### The opcode map as the spec tabulates it (R75) -/

/-- One row: a word matches it when `word &&& mask = bits` (R74; `bits` is the column "match"). -/
structure OpcodeRow where
  bits : Opcode
  mask : Opcode
  deriving DecidableEq, Repr

/-- Whether a word matches a row (R74). -/
def OpcodeRow.matchesWord (r : OpcodeRow) (op : Opcode) : Bool := op &&& r.mask == r.bits

/-- The row of the opcode map an instruction stands for (R75). -/
def Instr.row : Instr → OpcodeRow
  | .cls => ⟨0x00E0, 0xFFFF⟩
  | .ret => ⟨0x00EE, 0xFFFF⟩
  | .jp _ => ⟨0x1000, 0xF000⟩
  | .call _ => ⟨0x2000, 0xF000⟩
  | .seByte _ _ => ⟨0x3000, 0xF000⟩
  | .sneByte _ _ => ⟨0x4000, 0xF000⟩
  | .seReg _ _ => ⟨0x5000, 0xF00F⟩
  | .ldByte _ _ => ⟨0x6000, 0xF000⟩
  | .addByte _ _ => ⟨0x7000, 0xF000⟩
  | .ldReg _ _ => ⟨0x8000, 0xF00F⟩
  | .orReg _ _ => ⟨0x8001, 0xF00F⟩
  | .andReg _ _ => ⟨0x8002, 0xF00F⟩
  | .xorReg _ _ => ⟨0x8003, 0xF00F⟩
  | .addReg _ _ => ⟨0x8004, 0xF00F⟩
  | .subReg _ _ => ⟨0x8005, 0xF00F⟩
  | .shr _ _ => ⟨0x8006, 0xF00F⟩
  | .subnReg _ _ => ⟨0x8007, 0xF00F⟩
  | .shl _ _ => ⟨0x800E, 0xF00F⟩
  | .sneReg _ _ => ⟨0x9000, 0xF00F⟩
  | .ldI _ => ⟨0xA000, 0xF000⟩
  | .jpV0 _ => ⟨0xB000, 0xF000⟩
  | .rnd _ _ => ⟨0xC000, 0xF000⟩
  | .drw _ _ _ => ⟨0xD000, 0xF000⟩
  | .skp _ => ⟨0xE09E, 0xF0FF⟩
  | .sknp _ => ⟨0xE0A1, 0xF0FF⟩
  | .ldVxDt _ => ⟨0xF007, 0xF0FF⟩
  | .ldVxK _ => ⟨0xF00A, 0xF0FF⟩
  | .ldDtVx _ => ⟨0xF015, 0xF0FF⟩
  | .ldStVx _ => ⟨0xF018, 0xF0FF⟩
  | .addI _ => ⟨0xF01E, 0xF0FF⟩
  | .ldF _ => ⟨0xF029, 0xF0FF⟩
  | .ldB _ => ⟨0xF033, 0xF0FF⟩
  | .storeRegs _ => ⟨0xF055, 0xF0FF⟩
  | .loadRegs _ => ⟨0xF065, 0xF0FF⟩

/-- The complete opcode map: the 34 rows of R75 in its order. -/
def opcodeMap : List OpcodeRow :=
  [⟨0x00E0, 0xFFFF⟩, ⟨0x00EE, 0xFFFF⟩, ⟨0x1000, 0xF000⟩, ⟨0x2000, 0xF000⟩, ⟨0x3000, 0xF000⟩, ⟨0x4000, 0xF000⟩,
    ⟨0x5000, 0xF00F⟩, ⟨0x6000, 0xF000⟩, ⟨0x7000, 0xF000⟩] ++
  [⟨0x8000, 0xF00F⟩, ⟨0x8001, 0xF00F⟩, ⟨0x8002, 0xF00F⟩, ⟨0x8003, 0xF00F⟩, ⟨0x8004, 0xF00F⟩, ⟨0x8005, 0xF00F⟩,
    ⟨0x8006, 0xF00F⟩, ⟨0x8007, 0xF00F⟩, ⟨0x800E, 0xF00F⟩] ++
  [⟨0x9000, 0xF00F⟩, ⟨0xA000, 0xF000⟩, ⟨0xB000, 0xF000⟩, ⟨0xC000, 0xF000⟩, ⟨0xD000, 0xF000⟩, ⟨0xE09E, 0xF0FF⟩,
    ⟨0xE0A1, 0xF0FF⟩] ++
  [⟨0xF007, 0xF0FF⟩, ⟨0xF00A, 0xF0FF⟩, ⟨0xF015, 0xF0FF⟩, ⟨0xF018, 0xF0FF⟩, ⟨0xF01E, 0xF0FF⟩, ⟨0xF029, 0xF0FF⟩,
    ⟨0xF033, 0xF0FF⟩, ⟨0xF055, 0xF0FF⟩, ⟨0xF065, 0xF0FF⟩]

/-- The rows a word matches, in the order of the map (R74's search). -/
def rowsMatching (op : Opcode) : List OpcodeRow := opcodeMap.filter (·.matchesWord op)

end Sys2Proof
end

