-- ==== Sys2Proof/Machine/Font.lean ====
section
/-! DEFINITION. The font and the reset contents of memory (spec/00_scope.md R8; spec/20_memory.md R56;
spec/43_index_memory.md R147; spec/92_eei_decisions.md D5, D7). -/

namespace Sys2Proof.Machine

/-- FONT_ROM (R8): the parameter of 80 glyph bytes. Glyph d is bytes 5d to 5d+4, top row first (R147). -/
abbrev FontRom := Vector Byte 80

/-- FONT_BASE (R7): the address of glyph 0. -/
def fontBase : Nat := 0x050

/-- The bytes of the spec's default FONT_ROM, by glyph (decision D7, from general knowledge). PRESUMED: log entry 1. -/
def defaultFontBytes : List Byte :=
  [0xF0, 0x90, 0x90, 0x90, 0xF0, 0x20, 0x60, 0x20, 0x20, 0x70, 0xF0, 0x10, 0xF0, 0x80, 0xF0, 0xF0, 0x10, 0xF0, 0x10, 0xF0] ++
  [0x90, 0x90, 0xF0, 0x10, 0x10, 0xF0, 0x80, 0xF0, 0x10, 0xF0, 0xF0, 0x80, 0xF0, 0x90, 0xF0, 0xF0, 0x10, 0x20, 0x40, 0x40] ++
  [0xF0, 0x90, 0xF0, 0x90, 0xF0, 0xF0, 0x90, 0xF0, 0x10, 0xF0, 0xF0, 0x90, 0xF0, 0x90, 0x90, 0xE0, 0x90, 0xE0, 0x90, 0xE0] ++
  [0xF0, 0x80, 0x80, 0x80, 0xF0, 0xE0, 0x90, 0x90, 0x90, 0xE0, 0xF0, 0x80, 0xF0, 0x80, 0xF0, 0xF0, 0x80, 0xF0, 0x80, 0x80]

/-- The spec's default for FONT_ROM (R8, decision D7). Log entry 1. -/
def defaultFontRom : FontRom := ⟨⟨defaultFontBytes⟩, rfl⟩

/-- What a byte of memory that nothing has written reads as: its reset contents, FONT_ROM from FONT_BASE on and 0 elsewhere
(R56, R63; decision D5). -/
def resetByte (rom : FontRom) (a : Nat) : Byte :=
  if h : fontBase ≤ a ∧ a < fontBase + 80 then rom[a - fontBase]'(by omega) else 0

end Sys2Proof.Machine
end

