-- ==== Sys2Proof/Machine/State.lean ====
section
/-! DEFINITION. The state of the core (spec/10_state.md R20 to R42), plain data, and its value after reset (R42;
spec/70_reset_and_hazards.md R211). -/

namespace Sys2Proof.Machine

/-- `MODE`, the interpreter-loop state (R32). -/
inductive Mode where
  | running
  | keyWait
  | halted
  deriving DecidableEq, Repr

/-- `ERR`, why the core halted (R34). -/
inductive ErrCode where
  | noError
  | stackOverflow
  | stackUnderflow
  deriving DecidableEq, Repr

/-- A REPORT event: the unsupported opcode and the pc it was fetched from (R39; spec/60_exceptions.md R186, R191). -/
structure Report where
  op : Opcode
  pc : Addr
  deriving DecidableEq, Repr

/-- Memory: the bytes that differ from what an unlisted address reads as, by strictly rising address
(`Memory.wf` in Sys2Proof/Machine/Memory.lean). -/
abbrev Memory := List Host.Cell

/-- The display buffer: row `y` is entry `y`, and the cell at column `x` of the row is its bit `x` (R29). -/
abbrev Display := Vector (BitVec 64) 32

/-- Everything the spec gives the machine (R40), the REPORT output and the RND input (R38, R39), the parameter FONT_ROM (R8), and
the model's own draw counter. -/
structure State where
  /-- `V[0x0]` to `V[0xF]` (R20); `V[0xF]` is VF (R21). -/
  v : Vector Byte 16
  /-- The index register `I` (R23). -/
  i : Word
  /-- The program counter (R24). -/
  pc : Addr
  /-- `STACK[0]` to `STACK[15]` (R26). -/
  stack : Vector Word 16
  /-- `SP`, the number of entries in use, 0 to 16 (R26, R27). -/
  sp : Fin 17
  /-- The delay timer `DT` (R28). -/
  dt : Byte
  /-- The sound timer `ST` (R28). -/
  st : Byte
  /-- The display buffer `FB` (R29). -/
  fb : Display
  /-- The keypad state `KEYS`, true meaning pressed (R30). -/
  keys : Vector Bool 16
  /-- The memory array `M` (R31). -/
  mem : Memory
  /-- `MODE` (R32). -/
  mode : Mode
  /-- `WAIT_REG` (R33). -/
  waitReg : Nibble
  /-- `ERR` (R34). -/
  err : ErrCode
  /-- `STARTED` (R35). -/
  started : Bool
  /-- `FB_CHANGED` (R36). -/
  fbChanged : Bool
  /-- The REPORT output of the last tick (R39): the event it emitted, if it emitted one. Log entry 2. -/
  report : Option Report
  /-- FONT_ROM (R8): the parameter of the machine, which RESET loads into memory and nothing writes. Log entry 1. -/
  fontRom : FontRom
  /-- The bytes the host has put on the RND input and no draw has taken yet, next first (R38). Log entry 3. -/
  rndIn : List Byte
  /-- The MODEL's own counter of draws: the index of the free random byte. Log entry 3. -/
  rndDraws : Nat
  deriving DecidableEq, Repr

/-- Why a tick ends in a fault: never. Every error of the hardware has an effect the spec gives (spec/60_exceptions.md R185):
an unsupported opcode is reported and skipped, a stack error enters HALTED, an address out of range cannot occur. Safe: the
type is empty, so no meaning can stop so. -/
inductive Fault where
  deriving DecidableEq, Repr

/-- Why something is given no meaning. -/
inductive Refusal where
  /-- An instruction that has no meaning yet. Raised by an arm of `exec` only, and by none now. Safe. -/
  | notModelled (mnemonic : String)
  /-- A KEY_PRESS or KEY_RELEASE of a code outside 0x0 to 0xF: "refused" (spec/45_keys_timers.md R178). Raised by `hostStep`,
  never by a tick. Safe: the spec gives it no move. -/
  | keyCodeOutOfRange (k : Nat)
  /-- A LOAD at an offset above 3583: "refused and has no move" (spec/20_memory.md R63). Raised by `hostStep`, never by a tick.
  Safe. -/
  | loadOffsetOutOfRange (offset : Nat)
  /-- A LOAD after the first tick: "refused and has no move" (R63). Raised by `hostStep`, never by a tick. Safe. -/
  | loadAfterFirstTick
  deriving DecidableEq, Repr

/-- How a meaning ends. -/
abbrev Result := Host.Outcome State Fault Refusal

/-- The state after RESET of a machine with that FONT_ROM (R8, R42, R211, R212). Memory lists nothing: an unlisted address reads
as its reset contents (`resetByte`). The fields that are not the spec's state: log entries 1, 2 and 3. -/
def State.resetWith (rom : FontRom) : State where
  v := Vector.replicate 16 0
  i := 0
  pc := BitVec.ofNat 12 Config.programBase
  stack := Vector.replicate 16 0
  sp := 0
  dt := 0
  st := 0
  fb := Vector.replicate 32 0
  keys := Vector.replicate 16 false
  mem := []
  mode := .running
  waitReg := 0
  err := .noError
  started := false
  fbChanged := false
  report := none
  fontRom := rom
  rndIn := []
  rndDraws := 0

/-- The state after RESET with the spec's default FONT_ROM (decision D7). Log entry 1. -/
def State.reset : State := State.resetWith defaultFontRom

end Sys2Proof.Machine
end

