-- ==== Sys2Proof/Machine/Memory.lean ====
section
/-! DEFINITION. Memory as canonical data, and the byte accesses of the core (spec/00_scope.md R14; spec/20_memory.md R50 to
R58). What an unlisted address reads as depends on FONT_ROM (`resetByte`), so the operations take it. -/

namespace Sys2Proof.Machine

/-- The canonical form: addresses strictly rising, all below 4096, and no entry equal to what an unlisted address reads as. -/
abbrev Memory.wf (rom : FontRom) (m : Memory) : Prop :=
  m.Pairwise (fun c d => c.1 < d.1) ∧ ∀ c ∈ m, c.1 < 4096 ∧ c.2 ≠ resetByte rom c.1

/-- Every address is reduced modulo 4096 before the access (R51). -/
def wrapAddr (a : Nat) : Nat := a % 4096

/-- The listed value of an address, if it is listed. -/
def Memory.lookup : Memory → Nat → Option Byte
  | [], _ => none
  | (b, w) :: m, a => if b = a then some w else Memory.lookup m a

/-- List `v` at address `a`, or no longer list `a` where `v` is what an unlisted `a` reads as. -/
def Memory.cell (rom : FontRom) (m : Memory) (a : Nat) (v : Byte) : Memory :=
  if v = resetByte rom a then m else (a, v) :: m

/-- Set address `a` to `v`, keeping the canonical form. -/
def Memory.put (rom : FontRom) : Memory → Nat → Byte → Memory
  | [], a, v => Memory.cell rom [] a v
  | (b, w) :: m, a, v =>
    if a < b then Memory.cell rom ((b, w) :: m) a v
    else if a = b then Memory.cell rom m a v
    else (b, w) :: Memory.put rom m a v

/-- `MemRead(a, 1)` (R14): the byte at `a mod 4096`. -/
def Memory.read (rom : FontRom) (m : Memory) (a : Nat) : Byte :=
  (Memory.lookup m (wrapAddr a)).getD (resetByte rom (wrapAddr a))

/-- `MemWrite(a, 1, v)` (R14). -/
def Memory.write (rom : FontRom) (m : Memory) (a : Nat) (v : Byte) : Memory :=
  Memory.put rom m (wrapAddr a) v

/-- The bytes at `a`, `a + 1`, …, `a + n - 1`, each address modulo 4096 (R14). -/
def Memory.readBytes (rom : FontRom) (m : Memory) (a n : Nat) : List Byte :=
  (List.range n).map fun k => Memory.read rom m (a + k)

/-- Write bytes to `a`, `a + 1`, … in this order, each address modulo 4096 (R14). -/
def Memory.writeBytes (rom : FontRom) (m : Memory) (a : Nat) : List Byte → Memory
  | [] => m
  | b :: bs => Memory.writeBytes rom (Memory.write rom m a b) (a + 1) bs

end Sys2Proof.Machine
end

