-- ==== Sys2Proof/Machine/Ops.lean ====
section
/-! DEFINITION. The named operations over the state that the instructions and the tick share (spec/00_scope.md R12 to R15). -/

namespace Sys2Proof.Machine

/-! ### General registers (spec/10_state.md R20, R21) -/

/-- `V[x]`. -/
def State.reg (s : State) (x : Nibble) : Byte := s.v[x.toNat]'x.isLt

/-- `V[x] <- b`. No register is hardwired (R20). -/
def State.setReg (s : State) (x : Nibble) (b : Byte) : State := { s with v := s.v.set x.toNat b x.isLt }

/-- The number of the flag register VF (R21). -/
def vF : Nibble := 0xF

/-- `V[k] <- b` for the bytes given, from register `k` on (spec/43_index_memory.md R145). -/
def State.setRegsFrom (s : State) (k : Nat) : List Byte → State
  | [] => s
  | b :: bs => (s.setReg (BitVec.ofNat 4 k) b).setRegsFrom (k + 1) bs

/-! ### The index register (R23) -/

/-- `I <- t mod 4096`: every write of I leaves a value in 0x000 to 0xFFF (R23; decision D12). -/
def State.setIndex (s : State) (t : Nat) : State := { s with i := BitVec.ofNat 16 (wrapAddr t) }

/-! ### The program counter (R24; spec/00_scope.md R15) -/

/-- `pc <- t mod 4096` (R15; decision D8). -/
def State.setPc (s : State) (t : Nat) : State := { s with pc := BitVec.ofNat 12 (wrapAddr t) }

/-- `pc <- pc + n` (spec/40_cycle.md R95: n is 2, or 4 for a skip that is taken). -/
def State.advance (s : State) (n : Nat) : State := s.setPc (s.pc.toNat + n)

/-- A conditional skip: pc advances by 4 when it is taken, by 2 otherwise (R95; spec/41_flow.md R113). -/
def State.skipIf (s : State) (taken : Bool) : State := s.advance (if taken then 4 else 2)

/-! ### Memory (spec/20_memory.md R50 to R54) -/

/-- `MemRead(a, 1)`. -/
def State.readByte (s : State) (a : Nat) : Byte := Memory.read s.fontRom s.mem a

/-- `MemWrite` of bytes from `a` on. -/
def State.storeBytes (s : State) (a : Nat) (bs : List Byte) : State :=
  { s with mem := Memory.writeBytes s.fontRom s.mem a bs }

/-- Fetch: the two bytes at pc, the high byte first; it changes nothing (R52; spec/40_cycle.md R92). -/
def State.fetchWord (s : State) : Opcode :=
  wordOfBytes (s.readByte s.pc.toNat) (s.readByte (s.pc.toNat + 1))

/-- The loop in RUNNING: KEY_WAIT is left so (spec/40_cycle.md R96). -/
def State.resume (s : State) : State := { s with mode := .running }

/-- Place a word where the next tick fetches: its two bytes at pc, high byte first (R52, R79), and the loop in RUNNING, the one
mode that fetches (spec/40_cycle.md R91). Log entry 5. -/
def State.placeWord (s : State) (op : Opcode) : State :=
  (s.storeBytes s.pc.toNat (bytesOfWord op)).resume

/-! ### The call stack (R26, R27) -/

/-- `STACK[j]`. -/
def State.stackEntry (s : State) (j : Fin 16) : Word := s.stack[j.val]'j.isLt

/-- Push: `STACK[SP] <- e`, then `SP <- SP + 1`. For `SP < 16`, which `2nnn` has checked (spec/41_flow.md R107; decision
D20). -/
def State.push (s : State) (e : Word) : State :=
  { s with stack := s.stack.set (Fin.ofNat 16 s.sp.val).val e (Fin.ofNat 16 s.sp.val).isLt, sp := Fin.ofNat 17 (s.sp.val + 1) }

/-- The entry a pop reads: `STACK[SP - 1]`. For `SP > 0` (spec/41_flow.md R105). -/
def State.topEntry (s : State) : Word := s.stackEntry (Fin.ofNat 16 (s.sp.val - 1))

/-- Pop: `SP <- SP - 1`; the entry is not cleared (R26; decision D20). For `SP > 0`, which `00EE` has checked. -/
def State.pop (s : State) : State := { s with sp := Fin.ofNat 17 (s.sp.val - 1) }

/-! ### Errors (spec/60_exceptions.md) -/

/-- `raise Fatal(code)`: the one way an error of the hardware stops a program. ERR and MODE are written and nothing else
(R189). There is no return from it but RESET (R190). -/
def State.fatal (s : State) (code : ErrCode) : State := { s with err := code, mode := .halted }

/-- Emit an event on the REPORT output (spec/00_scope.md R15; spec/10_state.md R39). -/
def State.emit (s : State) (r : Report) : State := { s with report := some r }

/-- UnsupportedOpcode: report the word and its pc, and go on at pc + 2 (R186). -/
def State.unsupported (s : State) (op : Opcode) : State := (s.emit ⟨op, s.pc⟩).advance 2

/-! ### Keypad (spec/45_keys_timers.md R170, R171) -/

/-- `KEYS[k]`. -/
def State.key (s : State) (k : Fin 16) : Bool := s.keys[k.val]'k.isLt

/-- `KEYS[k] <- b`, which only the host does (R30, R178). -/
def State.setKey (s : State) (k : Fin 16) (b : Bool) : State := { s with keys := s.keys.set k.val b k.isLt }

/-- `IsPressed(c)`: a value above 0xF is no key and is never pressed (R170; decision D14). -/
def State.isPressed (s : State) (c : Byte) : Bool := if h : c.toNat < 16 then s.key ⟨c.toNat, h⟩ else false

/-- `AnyPressed()`: the lowest pressed key, if there is one (R171). -/
def State.anyPressed (s : State) : Option (Fin 16) := (List.finRange 16).find? s.key

/-- A key code as the byte that is stored in a register. -/
def keyByte (k : Fin 16) : Byte := BitVec.ofNat 8 k.val

/-- Store a pressed key's code in `V[x]` and go on at pc + 2 (R175; spec/40_cycle.md R96). -/
def State.storeKey (s : State) (x : Nibble) (k : Fin 16) : State := (s.setReg x (keyByte k)).advance 2

/-- Enter KEY_WAIT for register x; pc is left where it is (R175). -/
def State.enterKeyWait (s : State) (x : Nibble) : State := { s with waitReg := x, mode := .keyWait }

/-- `KeyWaitPoll()` (R96). -/
def State.keyWaitPoll (s : State) : State :=
  match s.anyPressed with
  | some k => (s.storeKey s.waitReg k).resume
  | none => s

/-! ### Timers (spec/40_cycle.md R97; spec/45_keys_timers.md R176, R177) -/

/-- `DT <- b`. -/
def State.setDelay (s : State) (b : Byte) : State := { s with dt := b }

/-- `ST <- b`. -/
def State.setSound (s : State) (b : Byte) : State := { s with st := b }

/-- One countdown: never below zero (R97). -/
def countDown (t : Byte) : Byte := if t = 0 then 0 else t - 1

/-- `TimerPhase()` (R97). -/
def State.timerPhase (s : State) : State := { s with dt := countDown s.dt, st := countDown s.st }

/-! ### The random source (spec/42_alu.md R131; decision D30) -/

/-- `draw RND`: the next byte the host put on the RND input, or a free byte where none is waiting. Log entry 3. -/
def State.rndByte (s : State) : Byte :=
  match s.rndIn with
  | b :: _ => b
  | [] => Config.rndByte s.rndDraws

/-- The input and the counter after a draw. -/
def State.drawn (s : State) : State := { s with rndIn := s.rndIn.tail, rndDraws := s.rndDraws + 1 }

/-! ### Display (spec/10_state.md R29, R36) -/

/-- Replace the display buffer and raise FB_CHANGED, as `00E0` and `Dxyn` do (spec/44_display.md R158, R159). -/
def State.setDisplay (s : State) (fb : Display) : State := { s with fb := fb, fbChanged := true }

/-! ### The opening of a tick (spec/40_cycle.md R91) -/

/-- `FB_CHANGED <- 0`, `STARTED <- 1`, and no event reported yet in this tick (R91, R100). -/
def State.openTick (s : State) : State := { s with fbChanged := false, started := true, report := none }

end Sys2Proof.Machine
end

