-- ==== Sys2Proof/Machine/Operands.lean ====
section
/-! DEFINITION. The operand forms of the instructions (spec/30_encoding.md R73; spec/43_index_memory.md R146). The registers
`V[x]`, `V[y]` are read by `State.reg`; immediates are used as they stand. -/

namespace Sys2Proof.Machine

/-- The target of `Bnnn`: nnn plus V0, before the reduction modulo 4096 (spec/41_flow.md R112). -/
def State.indexedTarget (s : State) (nnn : Addr) : Nat := (s.reg 0).toNat + nnn.toNat

/-- The address of offset k in an `I`-relative access: "I plus a small constant offset k" modulo 4096 (R146, R51). -/
def State.indexAddr (s : State) (k : Nat) : Nat := wrapAddr (s.i.toNat + k)

/-- The n bytes at I, I + 1, … modulo 4096: the rows of a sprite (spec/44_display.md R159) or the bytes `Fx65` loads. -/
def State.indexBytes (s : State) (n : Nat) : List Byte := Memory.readBytes s.fontRom s.mem (s.indexAddr 0) n

/-- `V[0]`, …, `V[x]`: the bytes `Fx55` stores (spec/43_index_memory.md R144). -/
def State.regsThrough (s : State) (x : Nibble) : List Byte :=
  (List.range (x.toNat + 1)).map fun k => s.reg (BitVec.ofNat 4 k)

/-- The decimal digits of a byte, hundreds first (R143). -/
def decimalDigits (b : Byte) : List Byte :=
  [BitVec.ofNat 8 (b.toNat / 100), BitVec.ofNat 8 (b.toNat / 10 % 10), BitVec.ofNat 8 (b.toNat % 10)]

/-- The address of the font glyph of d, for the whole of d, not its low nibble (R142, R147). -/
def glyphAddr (d : Byte) : Nat := fontBase + 5 * d.toNat

end Sys2Proof.Machine
end

