-- ==== Sys2Proof/Machine/Alu.lean ====
section
/-! DEFINITION. Register and ALU instructions (spec/42_alu.md R120 to R134). -/

namespace Sys2Proof.Machine

/-- `V[x] <- r; pc <- pc + 2`. -/
def State.result (s : State) (x : Nibble) (r : Byte) : State := (s.setReg x r).advance 2

/-- `V[x] <- r; VF <- flag; pc <- pc + 2`: the flag is written last (R133). -/
def State.flaggedResult (s : State) (x : Nibble) (r flag : Byte) : State := ((s.setReg x r).setReg vF flag).advance 2

/-- `6xnn` LD (R120). -/
def execLdByte (x : Nibble) (nn : Byte) (s : State) : Result := .next (s.result x nn)

/-- `7xnn` ADD, modulo 256, no flag (R121). -/
def execAddByte (x : Nibble) (nn : Byte) (s : State) : Result := .next (s.result x (s.reg x + nn))

/-- `8xy0` LD (R122). -/
def execLdReg (x y : Nibble) (s : State) : Result := .next (s.result x (s.reg y))

/-- `8xy1` OR (R123). -/
def execOrReg (x y : Nibble) (s : State) : Result := .next (s.result x (s.reg x ||| s.reg y))

/-- `8xy2` AND (R124). -/
def execAndReg (x y : Nibble) (s : State) : Result := .next (s.result x (s.reg x &&& s.reg y))

/-- `8xy3` XOR (R125). -/
def execXorReg (x y : Nibble) (s : State) : Result := .next (s.result x (s.reg x ^^^ s.reg y))

/-- `8xy4` ADD, VF = carry (R126). -/
def execAddReg (x y : Nibble) (s : State) : Result :=
  .next (s.flaggedResult x (s.reg x + s.reg y) (carryFlag (s.reg x) (s.reg y)))

/-- `8xy5` SUB, VF = no borrow (R127). -/
def execSubReg (x y : Nibble) (s : State) : Result :=
  .next (s.flaggedResult x (s.reg x - s.reg y) (noBorrowFlag (s.reg x) (s.reg y)))

/-- `8xy6` SHR, of `V[x]`; the y field has no effect (R128). -/
def execShr (x _y : Nibble) (s : State) : Result := .next (s.flaggedResult x (s.reg x >>> 1) (shiftedOutLow (s.reg x)))

/-- `8xy7` SUBN, VF = no borrow of `V[y] - V[x]` (R129). -/
def execSubnReg (x y : Nibble) (s : State) : Result :=
  .next (s.flaggedResult x (s.reg y - s.reg x) (noBorrowFlag (s.reg y) (s.reg x)))

/-- `8xyE` SHL, of `V[x]`; the y field has no effect (R130). -/
def execShl (x _y : Nibble) (s : State) : Result := .next (s.flaggedResult x (s.reg x <<< 1) (shiftedOutHigh (s.reg x)))

/-- `Cxnn` RND (R131). -/
def execRnd (x : Nibble) (nn : Byte) (s : State) : Result := .next (s.drawn.result x (s.rndByte &&& nn))

end Sys2Proof.Machine
end

