-- ==== Sys2Proof/Machine/Blit.lean ====
section
/-! DEFINITION. The sprite blit unit and its collision detector (spec/44_display.md R155 to R157). -/

namespace Sys2Proof.Machine

/-- `FB[y][x]` (spec/10_state.md R29). -/
def Display.cell (fb : Display) (x : Fin 64) (y : Fin 32) : Bool := (fb[y.val]'y.isLt).getLsbD x.val

/-- `FB[y][x] <- FB[y][x] ^ 1`. -/
def Display.toggle (fb : Display) (x : Fin 64) (y : Fin 32) : Display :=
  fb.set y.val ((fb[y.val]'y.isLt) ^^^ BitVec.twoPow 64 x.val) y.isLt

/-- The all-zero buffer (R158). -/
def Display.blank : Display := Vector.replicate 32 0

/-- A buffer under drawing: the cells, and whether a set cell has been turned off so far (R156). -/
structure Canvas where
  fb : Display
  col : Bool
  deriving DecidableEq, Repr

/-- One sprite bit s at column cx, row cy: XOR into the cell, and a collision if both were set (R155). -/
def Canvas.plot (c : Canvas) (cx : Fin 64) (cy : Fin 32) (s : Bool) : Canvas :=
  if s then ⟨Display.toggle c.fb cx cy, c.col || Display.cell c.fb cx cy⟩ else c

/-- Sprite bit b of a row byte, b = 0 being bit 7 (R155: most significant bit first). -/
def spriteBit (row : Byte) (b : Nat) : Bool := row.getLsbD (7 - b)

/-- Row r of a sprite at the origin (x0, y0): its 8 bits, left to right, wrapping on both axes (R155). -/
def Canvas.plotRow (x0 y0 : Byte) (r : Nat) (row : Byte) (c : Canvas) : Canvas :=
  (List.range 8).foldl
    (fun c b => c.plot (Fin.ofNat 64 (x0.toNat + b)) (Fin.ofNat 32 (y0.toNat + r)) (spriteBit row b)) c

/-- The rows of a sprite from row number r on (R155). -/
def Canvas.plotRows (x0 y0 : Byte) : Nat → List Byte → Canvas → Canvas
  | _, [], c => c
  | r, row :: rows, c => Canvas.plotRows x0 y0 (r + 1) rows (Canvas.plotRow x0 y0 r row c)

/-- `DrawSprite(x0, y0, rows)`: the new buffer and the collision bit (R155). -/
def drawSprite (fb : Display) (x0 y0 : Byte) (rows : List Byte) : Canvas := Canvas.plotRows x0 y0 0 rows ⟨fb, false⟩

end Sys2Proof.Machine
end

