-- ==== Sys2Proof/Machine/DisplayInstr.lean ====
section
/-! DEFINITION. The two instructions that change the display (spec/44_display.md R158, R159). -/

namespace Sys2Proof.Machine

/-- `00E0` CLS (R158). -/
def execCls (s : State) : Result := .next ((s.setDisplay Display.blank).advance 2)

/-- What `Dxyn` draws: the sprite at I on the buffer, its origin and rows read before any write (R159). -/
def State.drawing (s : State) (x y n : Nibble) : Canvas := drawSprite s.fb (s.reg x) (s.reg y) (s.indexBytes n.toNat)

/-- `Dxyn` DRW: draw, then VF <- collision; n = 0 draws no row (R159). -/
def execDrw (x y n : Nibble) (s : State) : Result :=
  .next (((s.setDisplay (s.drawing x y n).fb).setReg vF (flagByte (s.drawing x y n).col)).advance 2)

end Sys2Proof.Machine
end

