-- ==== Sys2Proof/Machine/Flow.lean ====
section
/-! DEFINITION. Control transfer and conditional skips (spec/41_flow.md R105 to R115). pc holds the instruction's own address
when a meaning runs (spec/10_state.md R24). -/

namespace Sys2Proof.Machine

/-- `00EE` RET (R105): fatal on an empty stack (R188), else pc <- popped entry + 2. -/
def execRet (s : State) : Result :=
  if s.sp = 0 then .next (s.fatal .stackUnderflow) else .next (s.pop.setPc (s.topEntry.toNat + 2))

/-- `1nnn` JP (R106). -/
def execJp (nnn : Addr) (s : State) : Result := .next (s.setPc nnn.toNat)

/-- `2nnn` CALL (R107): fatal on a full stack (R187), else the call's own address is pushed. -/
def execCall (nnn : Addr) (s : State) : Result :=
  if s.sp = 16 then .next (s.fatal .stackOverflow) else .next ((s.push (s.pc.setWidth 16)).setPc nnn.toNat)

/-- `3xnn` SE (R108). -/
def execSeByte (x : Nibble) (nn : Byte) (s : State) : Result := .next (s.skipIf (s.reg x == nn))

/-- `4xnn` SNE (R109). -/
def execSneByte (x : Nibble) (nn : Byte) (s : State) : Result := .next (s.skipIf (s.reg x != nn))

/-- `5xy0` SE (R110). -/
def execSeReg (x y : Nibble) (s : State) : Result := .next (s.skipIf (s.reg x == s.reg y))

/-- `9xy0` SNE (R111, R115). -/
def execSneReg (x y : Nibble) (s : State) : Result := .next (s.skipIf (s.reg x != s.reg y))

/-- `Bnnn` JP V0 (R112). -/
def execJpV0 (nnn : Addr) (s : State) : Result := .next (s.setPc (s.indexedTarget nnn))

end Sys2Proof.Machine
end

