-- ==== Sys2Proof/Machine/IndexMemory.lean ====
section
/-! DEFINITION. Index register and memory instructions (spec/43_index_memory.md R140 to R147). -/

namespace Sys2Proof.Machine

/-- `Annn` LD I (R140). -/
def execLdI (nnn : Addr) (s : State) : Result := .next ((s.setIndex nnn.toNat).advance 2)

/-- `Fx1E` ADD I, 12-bit wrap, no flag (R141). -/
def execAddI (x : Nibble) (s : State) : Result := .next ((s.setIndex (s.i.toNat + (s.reg x).toNat)).advance 2)

/-- `Fx29` LD F (R142). -/
def execLdF (x : Nibble) (s : State) : Result := .next ((s.setIndex (glyphAddr (s.reg x))).advance 2)

/-- `Fx33` LD B: the three decimal digits at I; I is not changed (R143). -/
def execLdB (x : Nibble) (s : State) : Result :=
  .next ((s.storeBytes (s.indexAddr 0) (decimalDigits (s.reg x))).advance 2)

/-- `Fx55` LD [I]: V0 to Vx at I; I is not changed (R144). -/
def execStoreRegs (x : Nibble) (s : State) : Result :=
  .next ((s.storeBytes (s.indexAddr 0) (s.regsThrough x)).advance 2)

/-- `Fx65` LD Vx, [I]: V0 to Vx from I, then I <- I + x + 1; every byte is read before the first write (R145). -/
def execLoadRegs (x : Nibble) (s : State) : Result :=
  .next (((s.setRegsFrom 0 (s.indexBytes (x.toNat + 1))).setIndex (s.i.toNat + x.toNat + 1)).advance 2)

end Sys2Proof.Machine
end

