-- ==== Sys2Proof/Machine/KeysTimers.lean ====
section
/-! DEFINITION. Keypad and timer instructions (spec/45_keys_timers.md R170 to R177). -/

namespace Sys2Proof.Machine

/-- `Ex9E` SKP (R172). -/
def execSkp (x : Nibble) (s : State) : Result := .next (s.skipIf (s.isPressed (s.reg x)))

/-- `ExA1` SKNP (R173). -/
def execSknp (x : Nibble) (s : State) : Result := .next (s.skipIf (!s.isPressed (s.reg x)))

/-- `Fx07` LD Vx, DT: DT before this tick's timer phase (R174). -/
def execLdVxDt (x : Nibble) (s : State) : Result := .next ((s.setReg x s.dt).advance 2)

/-- `Fx0A` LD Vx, K: completes at once with a key down, else enters KEY_WAIT with pc unchanged (R175). -/
def execLdVxK (x : Nibble) (s : State) : Result :=
  match s.anyPressed with
  | some k => .next (s.storeKey x k)
  | none => .next (s.enterKeyWait x)

/-- `Fx15` LD DT, Vx (R176). -/
def execLdDtVx (x : Nibble) (s : State) : Result := .next ((s.setDelay (s.reg x)).advance 2)

/-- `Fx18` LD ST, Vx (R177). -/
def execLdStVx (x : Nibble) (s : State) : Result := .next ((s.setSound (s.reg x)).advance 2)

end Sys2Proof.Machine
end

