-- ==== Sys2Proof/Machine/Tick.lean ====
section
/-! DEFINITION. The tick (spec/40_cycle.md R90 to R100): fetch, decode, execute; the key-wait poll; the timer phase. -/

namespace Sys2Proof.Machine

/-- Decode and execute a word: the row's meaning, or the unsupported-opcode report (R93; spec/60_exceptions.md R186). -/
def runWord (op : Opcode) (s : State) : Result :=
  match decodeWord op with
  | some i => exec i s
  | none => .next (s.unsupported op)

/-- The end of a tick that executed: the timer phase, unless a fatal error has entered HALTED (R91). -/
def closeTick : Result → Result
  | .next t => if t.mode = .halted then .next t else .next t.timerPhase
  | .fault r => .fault r
  | .refused r => .refused r

/-- `Tick()` (R91). -/
def tick (s : State) : Result :=
  match s.mode with
  | .halted => .next s.openTick
  | .keyWait => .next s.openTick.keyWaitPoll.timerPhase
  | .running => closeTick (runWord s.fetchWord s.openTick)

end Sys2Proof.Machine
end

