-- ==== Sys2Proof/Machine/Step.lean ====
section
/-! DEFINITION. One step of the machine is one tick (spec/00_scope.md R6; spec/40_cycle.md R90). -/

namespace Sys2Proof.Machine

/-- One TICK (R91). -/
def step (s : State) : Host.Outcome State Fault Refusal := tick s

/-- The state with an instruction word of the opcode table placed where the next step fetches. Log entry 5. -/
def State.withFetchWord (s : State) (nbits w : Nat) : State := s.placeWord (tableWord nbits w)

end Sys2Proof.Machine
end

