-- ==== Sys2Proof/Machine/HostPort.lean ====
section
/-! DEFINITION. The core's interface: the host's actions between ticks and the outputs it reads (spec/10_state.md R38, R39). -/

namespace Sys2Proof.Machine

/-- RESET: every element takes its reset value whatever the state was, and memory is loaded from the machine's FONT_ROM
(spec/70_reset_and_hazards.md R210, R211). The RND input is outside the core and goes on (spec/10_state.md R40); log entry 3. -/
def hostReset (s : State) : State := { State.resetWith s.fontRom with rndIn := s.rndIn, rndDraws := s.rndDraws }

/-- KEY_PRESS(k) and KEY_RELEASE(k); a code outside 0x0 to 0xF is refused (spec/45_keys_timers.md R178). -/
def hostKey (k : Nat) (pressed : Bool) (s : State) : Result :=
  if h : k < 16 then .next (s.setKey ⟨k, h⟩ pressed) else .refused (.keyCodeOutOfRange k)

/-- LOAD(offset, byte): before the first tick and inside the image only (spec/20_memory.md R63). -/
def hostLoad (offset : Nat) (b : Byte) (s : State) : Result :=
  if s.started then .refused .loadAfterFirstTick
  else if offset < Config.imageBytes then .next (s.storeBytes (Config.programBase + offset) [b])
  else .refused (.loadOffsetOutOfRange offset)

/-- A byte on the RND input, behind those already waiting (R38). -/
def hostRnd (b : Byte) (s : State) : State := { s with rndIn := s.rndIn ++ [b] }

/-- One input of the core (R38). -/
def hostStep (a : HostAction) (s : State) : Result :=
  match a with
  | .tick => step s
  | .reset => .next (hostReset s)
  | .keyPress k => hostKey k true s
  | .keyRelease k => hostKey k false s
  | .load offset b => hostLoad offset b s
  | .rnd b => .next (hostRnd b s)

/-! ### Outputs (R39). FB_CHANGED and REPORT are the fields `fbChanged` and `report`. -/

/-- FB: the cell at column x, row y. -/
def State.fbOut (s : State) (x : Fin 64) (y : Fin 32) : Bool := Display.cell s.fb x y

/-- ST_OUT. -/
def State.stOut (s : State) : Byte := s.st

/-- MODE_OUT: RUNNING = 0, KEY_WAIT = 1, HALTED = 2 (R32; decision D21). -/
def State.modeOut (s : State) : Nat :=
  match s.mode with
  | .running => 0
  | .keyWait => 1
  | .halted => 2

/-- ERR_OUT: NONE = 0, STACK_OVERFLOW = 1, STACK_UNDERFLOW = 2 (R34; spec/60_exceptions.md R191; decision D21). -/
def State.errOut (s : State) : Nat :=
  match s.err with
  | .noError => 0
  | .stackOverflow => 1
  | .stackUnderflow => 2

end Sys2Proof.Machine
end

