-- ==== Sys2Proof/Safety.lean ====
section
/-! DEFINITION. What counts as a safe state, and the terms the claims are stated in: frames, the machine's invariants, and the
spec's tables of which instruction writes what. -/

namespace Sys2Proof.Machine

/-! ### Safe states -/

/-- No fatal error since reset: the spec asks claims to take "ERR = NONE at the end" (spec/93_implementation_defined.md I4). -/
abbrev State.safe (s : State) : Prop := s.err = .noError

/-! ### Frames: what an instruction leaves unchanged (spec/40_cycle.md R101; spec/92_eei_decisions.md D11) -/

/-- The parts of the state besides pc (spec/10_state.md R40), the model's ports and the parameter
FONT_ROM. -/
inductive Part where
  | regs
  | index
  | stack
  | delay
  | sound
  | display
  | keys
  | memory
  | mode
  | waitReg
  | err
  | started
  | fbChanged
  | report
  | font
  | random
  deriving DecidableEq, Repr

/-- Two states hold the same in a part, read the way the machine reads it: each register, stack entry, cell, key and byte. -/
def Part.Same (p : Part) (s t : State) : Prop :=
  match p with
  | .regs => ∀ r, t.reg r = s.reg r
  | .index => t.i = s.i
  | .stack => t.sp = s.sp ∧ ∀ j, t.stackEntry j = s.stackEntry j
  | .delay => t.dt = s.dt
  | .sound => t.st = s.st
  | .display => ∀ x y, Display.cell t.fb x y = Display.cell s.fb x y
  | .keys => ∀ k, t.key k = s.key k
  | .memory => ∀ a, t.readByte a = s.readByte a
  | .mode => t.mode = s.mode
  | .waitReg => t.waitReg = s.waitReg
  | .err => t.err = s.err
  | .started => t.started = s.started
  | .fbChanged => t.fbChanged = s.fbChanged
  | .report => t.report = s.report
  | .font => t.fontRom = s.fontRom
  | .random => t.rndIn = s.rndIn ∧ t.rndDraws = s.rndDraws

/-- `t` differs from `s` in pc and in the parts listed, at most. -/
def SameBut (changed : List Part) (s t : State) : Prop := ∀ p, p ∉ changed → p.Same s t

/-- Every register other than x is unchanged, and every part but the registers and those listed. -/
def SameButReg (x : Nibble) (changed : List Part) (s t : State) : Prop :=
  (∀ r, r ≠ x → t.reg r = s.reg r) ∧ SameBut (.regs :: changed) s t

/-- pc has moved n bytes on, modulo 4096 (spec/40_cycle.md R95). -/
def PcPlus (n : Nat) (s t : State) : Prop := t.pc.toNat = (s.pc.toNat + n) % 4096

/-! ### The values of reset -/

/-- Every element of the architectural state has the value of spec/10_state.md R42, memory's font being the machine's FONT_ROM,
and the outputs show it (R39). -/
def HasResetValues (t : State) : Prop :=
  (∀ x y, t.fbOut x y = false) ∧ (∀ r, t.reg r = 0) ∧ t.i = 0 ∧ t.pc = 0x200 ∧ t.sp = 0 ∧ (∀ j, t.stackEntry j = 0) ∧
  t.dt = 0 ∧ t.st = 0 ∧ (∀ k, t.key k = false) ∧ t.mode = .running ∧ t.waitReg = 0 ∧ t.err = .noError ∧
  t.started = false ∧ t.fbChanged = false ∧ t.modeOut = 0 ∧ t.errOut = 0 ∧ t.stOut = 0 ∧
  (∀ d : Fin 80, t.readByte (0x050 + d.val) = t.fontRom[d.val]) ∧
  (∀ a < 4096, a < 0x050 ∨ 0x0A0 ≤ a → t.readByte a = 0)

/-! ### Invariants of the machine -/

/-- Memory is in its canonical form. -/
abbrev MemoryCanonical (s : State) : Prop := Memory.wf s.fontRom s.mem

/-- "Every write leaves a value in 0x000 to 0xFFF, so `I[15:12]` is always 0" (spec/10_state.md R23). -/
abbrev IndexInTwelveBits (s : State) : Prop := s.i.toNat < 4096

/-- "Every stored entry is a pc value, so its bits 15:12 are 0" (R26). -/
abbrev StackHoldsAddresses (s : State) : Prop := ∀ j, (s.stackEntry j).toNat < 4096

/-- HALTED and ERR go together: ERR is set only by the fatal entry and cleared only by reset (R34; spec/60_exceptions.md R189). -/
abbrev HaltedMeansError (s : State) : Prop := s.mode = .halted ↔ s.err ≠ .noError

/-- A fatal error is precise: pc still addresses the `2nnn` that found the stack full or the `00EE` that found it empty (R189). -/
abbrev HaltIsPrecise (s : State) : Prop :=
  (s.err = .stackOverflow → s.sp = 16 ∧ decodeWord s.fetchWord = some (.call (opNNN s.fetchWord))) ∧
  (s.err = .stackUnderflow → s.sp = 0 ∧ decodeWord s.fetchWord = some .ret)

/-- In KEY_WAIT the word at pc is the pending `Fx0A` and WAIT_REG is its x field (spec/10_state.md R33). -/
abbrev WaitHoldsThePendingInstr (s : State) : Prop :=
  s.mode = .keyWait → decodeWord s.fetchWord = some (.ldVxK s.waitReg)

/-- A core that waits or has halted has started, and its last tick drew nothing and reported nothing; nor has a core that
has not started (R35, R36; spec/40_cycle.md R91, R100). That the REPORT output is held, and held empty, is log entry 2's choice. -/
abbrev OutputsQuiet (s : State) : Prop :=
  (s.mode ≠ .running → s.started = true) ∧
  (s.mode ≠ .running ∨ s.started = false → s.fbChanged = false ∧ s.report = none)

/-- The invariants together. They hold at reset and every tick and host action keeps them. -/
abbrev MachineInv (s : State) : Prop :=
  MemoryCanonical s ∧ IndexInTwelveBits s ∧ StackHoldsAddresses s ∧ HaltedMeansError s ∧ HaltIsPrecise s ∧
    WaitHoldsThePendingInstr s ∧ OutputsQuiet s

end Sys2Proof.Machine

namespace Sys2Proof

/-! ### The spec's tables -/

/-- The instructions that leave a value of their own in VF: the flag instructions, and the others when VF is their destination
(spec/42_alu.md R134). -/
def Instr.writesVF : Instr → Bool
  | .addReg _ _ | .subReg _ _ | .shr _ _ | .subnReg _ _ | .shl _ _ | .drw _ _ _ => true
  | .ldByte x _ | .addByte x _ | .ldReg x _ | .orReg x _ | .andReg x _ | .xorReg x _ | .rnd x _ | .ldVxDt x | .ldVxK x
  | .loadRegs x => x == Machine.vF
  | .cls | .ret | .jp _ | .call _ | .seByte _ _ | .sneByte _ _ | .seReg _ _ | .sneReg _ _ | .ldI _ | .jpV0 _ | .skp _ | .sknp _
  | .ldDtVx _ | .ldStVx _ | .addI _ | .ldF _ | .ldB _ | .storeRegs _ => false

/-- The instructions that store to memory (spec/20_memory.md R54). -/
def Instr.storesToMemory : Instr → Bool
  | .ldB _ | .storeRegs _ => true
  | _ => false

/-- The instructions that write the display (spec/10_state.md R29). -/
def Instr.writesDisplay : Instr → Bool
  | .cls | .drw _ _ _ => true
  | _ => false

/-- The instructions that use the stack (R26). -/
def Instr.usesStack : Instr → Bool
  | .call _ | .ret => true
  | _ => false

/-- The instructions that write I (R23). -/
def Instr.writesIndex : Instr → Bool
  | .ldI _ | .addI _ | .ldF _ | .loadRegs _ => true
  | _ => false

/-- The instructions that overwrite pc (spec/40_cycle.md R95). -/
def Instr.overwritesPc : Instr → Bool
  | .jp _ | .call _ | .ret | .jpV0 _ => true
  | _ => false

/-- The conditional skips (R95). -/
def Instr.isSkip : Instr → Bool
  | .seByte _ _ | .sneByte _ _ | .seReg _ _ | .sneReg _ _ | .skp _ | .sknp _ => true
  | _ => false

end Sys2Proof

namespace Sys2Proof.Machine

/-- The instruction a tick executes in this state, if it executes one: RUNNING, and the word at pc is supported (R91). -/
def State.current (s : State) : Option Instr := if s.mode = .running then decodeWord s.fetchWord else none

/-- Where an instruction that overwrites pc sends it, before the reduction modulo 4096; none for the others, and none where `2nnn`
finds the stack full or `00EE` finds it empty (R95; spec/41_flow.md R105 to R107, R112). -/
def State.pcTarget (s : State) : Instr → Option Nat
  | .jp nnn => some nnn.toNat
  | .call nnn => if s.sp = 16 then none else some nnn.toNat
  | .ret => if s.sp = 0 then none else some (s.topEntry.toNat + 2)
  | .jpV0 nnn => some ((s.reg 0).toNat + nnn.toNat)
  | _ => none

/-- The instruction raises a fatal error in this state: `2nnn` with the stack full, `00EE` with it empty
(spec/60_exceptions.md R187, R188). -/
def State.raisesFatal (s : State) (i : Instr) : Prop :=
  ((∃ nnn, i = .call nnn) ∧ s.sp = 16) ∨ (i = .ret ∧ s.sp = 0)

/-! ### The sprite, cell by cell (spec/44_display.md R155) -/

/-- The sprite bit that falls on the cell at column cx, row cy, for an origin (x0, y0): bit b of row r with
`cx = (x0 + b) mod 64` and `cy = (y0 + r) mod 32`, where there is one; no bit, and so 0, elsewhere. -/
def spriteBitAt (x0 y0 : Byte) (rows : List Byte) (cx : Fin 64) (cy : Fin 32) : Bool :=
  (List.range rows.length).any fun r => (List.range 8).any fun b =>
    decide (cx.val = (x0.toNat + b) % 64) && decide (cy.val = (y0.toNat + r) % 32) && spriteBit (rows.getD r 0) b

end Sys2Proof.Machine
end

