-- ==== Sys2Proof/Certificates/Slice0/Obligations.lean ====
section
/-! DEFINITION. What is claimed of the model. Each docstring names the rules of spec/ a statement formalises; where a clause
rests on a decision or a derivation that the spec marks as its own, it says so. `SameBut` and `SameButReg` are the frames:
what an instruction leaves unchanged. -/

open Sys2Proof Sys2Proof.Machine

/-! ### Encoding (spec/30_encoding.md) -/

/-- Words written out from the spec's encodings decode to the instructions they stand for: R79's example, and one word of every
family with the words of spec/95_test_vectors.md. That `5121` and `E09F` are unsupported is decision D24: every literal digit must
match. -/
def Obligations.WordsOfTheSpecDecode : Prop :=
  decodeWord 0x8344 = some (.addReg 3 4) ∧ bytesOfWord 0x8344 = [0x83, 0x44] ∧
  decodeWord 0x00E0 = some .cls ∧ decodeWord 0x00EE = some .ret ∧ decodeWord 0x220E = some (.call 0x20E) ∧
  decodeWord 0x9120 = some (.sneReg 1 2) ∧ decodeWord 0x6A5C = some (.ldByte 0xA 0x5C) ∧
  decodeWord 0x8476 = some (.shr 4 7) ∧ decodeWord 0xA123 = some (.ldI 0x123) ∧ decodeWord 0xF265 = some (.loadRegs 2) ∧
  decodeWord 0xD015 = some (.drw 0 1 5) ∧ decodeWord 0xE19E = some (.skp 1) ∧ decodeWord 0xF50A = some (.ldVxK 5) ∧
  decodeWord 0x0123 = none ∧ decodeWord 0x5121 = none ∧ decodeWord 0xE09F = none

/-- Decode and encode agree for every instruction and every value of every field: the bytes of an instruction, followed by
anything, decode to it and leave what follows (R70, R75, R79). -/
def Obligations.DecodeOfEncodeIsTheInstruction : Prop :=
  ∀ (i : Instr) (rest : List Byte), decodeBytes (bytesOfWord (encode i) ++ rest) = .ok (i, rest)

/-- The other direction: a word that decodes is the encoding of what it decodes to, so each word has one meaning and no bit of
it is dropped, the ignored y field of `8xy6` and `8xyE` included, and every literal digit matches (decision D24). -/
def Obligations.EncodeOfDecodeIsTheWord : Prop :=
  ∀ (op : Opcode) (i : Instr), decodeWord op = some i → encode i = op

/-- The decoder is the search of R74 in the opcode map of R75: a word that decodes matches exactly one row, that of its
instruction, and a word that does not decode matches none (R74, R77; that every literal digit must match is decision D24, that the
rows are disjoint the spec's derivation). -/
def Obligations.DecodeAgreesWithTheOpcodeMap : Prop :=
  ∀ op : Opcode, rowsMatching op = ((decodeWord op).map Instr.row).toList

/-! ### Memory (spec/00_scope.md R14; spec/20_memory.md) -/

/-- Every address is reduced modulo 4096 before the access, a read, a write and the fetch at 0xFFF included (R51). -/
def Obligations.EveryAddressWrapsModulo4096 : Prop :=
  ∀ (s : State) (a : Nat) (bs : List Byte),
    s.readByte a = s.readByte (a % 4096) ∧ s.storeBytes a bs = s.storeBytes (a % 4096) bs ∧
    s.indexAddr a < 4096 ∧ s.indexAddr a = (s.i.toNat + a) % 4096 ∧
    (s.pc = 0xFFF → s.fetchWord = s.readByte 0xFFF ++ s.readByte 0x000)

/-- A byte that is written reads back, every other byte is unchanged, and memory keeps its canonical form (R14, R55, R58), in
every state whose memory is canonical. -/
def Obligations.StoredByteReadsBackAndNothingElse : Prop :=
  ∀ (s : State) (a b : Nat) (v : Byte), MemoryCanonical s →
    MemoryCanonical (s.storeBytes a [v]) ∧
    (s.storeBytes a [v]).readByte b = if b % 4096 = a % 4096 then v else s.readByte b

/-- A word stored at pc is the word the next tick fetches: no fence is needed between a store and a fetch (R61, R216, which the
spec derives). The clauses about `withFetchWord` are the model's choice (log entry 5): it stands for the load of one word, places
that word at pc, sets MODE to RUNNING and changes nothing else. -/
def Obligations.PlacedWordIsTheWordFetched : Prop :=
  ∀ (s : State) (w : Nat), MemoryCanonical s →
    (s.storeBytes s.pc.toNat (bytesOfWord (tableWord 16 w))).fetchWord = tableWord 16 w ∧
    (s.withFetchWord 16 w).fetchWord = tableWord 16 w ∧ (s.withFetchWord 16 w).mode = .running ∧
    SameBut [.memory, .mode] s (s.withFetchWord 16 w) ∧ (s.withFetchWord 16 w).pc = s.pc ∧
    (∀ a, wrapAddr a ≠ s.pc.toNat → wrapAddr a ≠ wrapAddr (s.pc.toNat + 1) →
      (s.withFetchWord 16 w).readByte a = s.readByte a)

/-! ### Reset and the host's actions (spec/10_state.md R38, R42; spec/70_reset_and_hazards.md R210, R211) -/

/-- Every element has the value of R42 after reset, whatever the machine's FONT_ROM (R8), and RESET completes from every state,
HALTED and KEY_WAIT included, gives those values whatever the state was and loads the font of the machine it was (R201, R210). FB's
zeros and the reload of the font are the source's; the other values are the spec's decisions D3 to D7, D21, D27, D28. No glyph byte
is stated: the default FONT_ROM of `State.reset` is log entry 1. The model's own fields are left out. -/
def Obligations.ResetGivesEveryElementItsValue : Prop :=
  State.reset = State.resetWith defaultFontRom ∧
  (∀ rom : FontRom, HasResetValues (State.resetWith rom) ∧ (State.resetWith rom).fontRom = rom) ∧
  ∀ s : State, ∃ t, hostStep .reset s = .next t ∧ HasResetValues t ∧ t.fontRom = s.fontRom

/-- KEY_PRESS(k) sets `KEYS[k]` and KEY_RELEASE(k) clears it, for k up to 0xF, and nothing else changes; a code above 0xF is
refused (spec/45_keys_timers.md R178; decision D29). -/
def Obligations.KeyActionsChangeOneKey : Prop :=
  ∀ (s : State) (k : Nat) (pressed : Bool),
    let a : HostAction := if pressed then .keyPress k else .keyRelease k
    (∀ h : k < 16, ∃ t, hostStep a s = .next t ∧ t.key ⟨k, h⟩ = pressed ∧
      (∀ j : Fin 16, j.val ≠ k → t.key j = s.key j) ∧ t.pc = s.pc ∧ SameBut [.keys] s t) ∧
    (16 ≤ k → hostStep a s = .refused (.keyCodeOutOfRange k))

/-- LOAD(offset, byte) writes `M[0x200 + offset]` and nothing else, before the first tick and for offsets up to 3583; any other
LOAD is refused (spec/20_memory.md R63; decision D28). -/
def Obligations.LoadWritesTheImageBeforeTheFirstTick : Prop :=
  ∀ (s : State) (offset : Nat) (b : Byte), MemoryCanonical s →
    (s.started = false → offset < 3584 → ∃ t, hostStep (.load offset b) s = .next t ∧
      t.readByte (0x200 + offset) = b ∧ (∀ a, a % 4096 ≠ 0x200 + offset → t.readByte a = s.readByte a) ∧
      t.pc = s.pc ∧ SameBut [.memory] s t) ∧
    (s.started = true → hostStep (.load offset b) s = .refused .loadAfterFirstTick) ∧
    (s.started = false → 3584 ≤ offset → hostStep (.load offset b) s = .refused (.loadOffsetOutOfRange offset))

/-! ### Invariants -/

/-- The invariants of the machine hold at reset, whatever its FONT_ROM; `State.reset` is the one with the default. That no REPORT is held then is the model's choice (log entry 2); the reset values
are decisions D3 to D5, D27, D28. -/
def Obligations.ResetMeetsTheInvariants : Prop := ∀ rom : FontRom, MachineInv (State.resetWith rom)

/-- Every tick keeps the invariants: memory's canonical form, I in 12 bits (R23), stack entries addresses (R26), HALTED exactly
with an error (R32, R34), a precise halt (R189), the pending `Fx0A` at pc in KEY_WAIT (R33), quiet outputs (R91; that REPORT is held
and cleared by every tick is the model's choice, log entry 2). The spec marks D12, D16, D18 to D20, D27 and D28 in these rules as its
own decisions. -/
def Obligations.EveryTickKeepsTheInvariants : Prop :=
  ∀ s t : State, MachineInv s → step s = .next t → MachineInv t

/-- Every other host action the core admits keeps them too. That no REPORT is held after RESET is the model's choice (log
entry 2). -/
def Obligations.EveryHostActionKeepsTheInvariants : Prop :=
  ∀ (a : HostAction) (s t : State), a ≠ .tick → MachineInv s → hostStep a s = .next t → MachineInv t

/-! ### The tick (spec/40_cycle.md) -/

/-- A tick in RUNNING fetches the two bytes at pc, high byte first, and runs what they decode to, or reports them as
unsupported, on the state with the tick's opening writes done; then comes the timer phase, but for a fatal error (R91 to R93).
The clauses spell out `openTick` and `closeTick`. The opening writes of R91 are FB_CHANGED
and STARTED; that a tick also clears the REPORT held from the last one is the model's choice (log entry 2). -/
def Obligations.TickRunsTheDecodedInstruction : Prop :=
  ∀ s : State, s.mode = .running →
    s.fetchWord = s.readByte s.pc.toNat ++ s.readByte (s.pc.toNat + 1) ∧
    (∀ i, decodeWord s.fetchWord = some i → step s = closeTick (exec i s.openTick)) ∧
    (decodeWord s.fetchWord = none → step s = closeTick (.next (s.openTick.unsupported s.fetchWord))) ∧
    s.openTick.fbChanged = false ∧ s.openTick.started = true ∧ s.openTick.report = none ∧ s.openTick.pc = s.pc ∧
    SameBut [.fbChanged, .started, .report] s s.openTick ∧
    (∀ u : State, closeTick (.next u) = .next (if u.mode = .halted then u else u.timerPhase))

/-- No state is stuck: every tick ends in a next state, whatever the memory holds and whatever the mode (R77, R102;
spec/60_exceptions.md R185; spec/93_implementation_defined.md I14). -/
def Obligations.EveryTickHasANextState : Prop := ∀ s : State, ∃ t, step s = .next t

/-- An unsupported word is reported with its pc and skipped: pc advances by 2, the core stays RUNNING, the timers count down, and
nothing else changes (spec/60_exceptions.md R186; decisions D17, D27, D28). The event is held in the field `report` (the model's
choice, log entry 2). -/
def Obligations.UnsupportedWordIsReportedAndSkipped : Prop :=
  ∀ s : State, s.mode = .running → decodeWord s.fetchWord = none →
    ∃ t, step s = .next t ∧ t.report = some ⟨s.fetchWord, s.pc⟩ ∧ PcPlus 2 s t ∧ t.mode = .running ∧
      t.fbChanged = false ∧ t.started = true ∧ t.dt.toNat = s.dt.toNat - 1 ∧ t.st.toNat = s.st.toNat - 1 ∧
      SameBut [.report, .fbChanged, .started, .delay, .sound] s t

/-- The poll of KEY_WAIT: with a key down, the lowest code goes to `V[WAIT_REG]`, pc advances by 2 and the core runs again; with
none down, nothing changes but the timers (R96; the timer phase R97). Either way the tick leaves STARTED at 1 and FB_CHANGED at 0
(R91, R100; decisions D27, D28), and no REPORT: held so by the model's choice (log entry 2). -/
def Obligations.KeyWaitPollTakesTheLowestKey : Prop :=
  ∀ s : State, s.mode = .keyWait →
    (∀ k : Fin 16, s.key k = true → (∀ j < k, s.key j = false) →
      ∃ t, step s = .next t ∧ (t.reg s.waitReg).toNat = k.val ∧ PcPlus 2 s t ∧ t.mode = .running ∧
        t.dt.toNat = s.dt.toNat - 1 ∧ t.st.toNat = s.st.toNat - 1 ∧
        t.started = true ∧ t.fbChanged = false ∧ t.report = none ∧
        SameButReg s.waitReg [.mode, .delay, .sound, .started, .fbChanged, .report] s t) ∧
    ((∀ k, s.key k = false) →
      ∃ t, step s = .next t ∧ t.pc = s.pc ∧ t.mode = .keyWait ∧ t.dt.toNat = s.dt.toNat - 1 ∧ t.st.toNat = s.st.toNat - 1 ∧
        t.started = true ∧ t.fbChanged = false ∧ t.report = none ∧
        SameBut [.delay, .sound, .started, .fbChanged, .report] s t)

/-- HALTED is absorbing: a tick changes nothing at all (spec/60_exceptions.md R190; decision D19), in every state that meets the
invariants; among them, that no REPORT is held then is the model's choice (log entry 2). -/
def Obligations.HaltedTickChangesNothing : Prop :=
  ∀ s : State, MachineInv s → s.mode = .halted → step s = .next s

/-- Both timers count down by one, never below zero, at the end of every tick that began in RUNNING or KEY_WAIT and did not enter
HALTED, each on its own value; only `Fx15` and `Fx18` give them another value first (R97, R98). -/
def Obligations.TimersCountDownOncePerTick : Prop :=
  ∀ s t : State, s.mode ≠ .halted → step s = .next t → t.mode ≠ .halted →
    t.dt.toNat = (match s.current with | some (.ldDtVx x) => (s.reg x).toNat | _ => s.dt.toNat) - 1 ∧
    t.st.toNat = (match s.current with | some (.ldStVx x) => (s.reg x).toNat | _ => s.st.toNat) - 1

/-- MODE changes only so: RUNNING to KEY_WAIT by `Fx0A` with no key down; RUNNING to HALTED by `2nnn` with SP = 16 or `00EE` with
SP = 0; KEY_WAIT to RUNNING by a poll that finds a key; and no tick leaves HALTED (spec/10_state.md R32). -/
def Obligations.ModeChangesOnlyAsTheRulesSay : Prop :=
  ∀ s t : State, step s = .next t →
    (s.mode = .running → t.mode = .keyWait → (∃ x, s.current = some (.ldVxK x)) ∧ ∀ k, s.key k = false) ∧
    (s.mode = .running → t.mode = .halted →
      ((∃ nnn, s.current = some (.call nnn)) ∧ s.sp = 16 ∧ t.err = .stackOverflow) ∨
      (s.current = some .ret ∧ s.sp = 0 ∧ t.err = .stackUnderflow)) ∧
    (s.mode = .keyWait → t.mode ≠ .halted ∧ (t.mode = .running ↔ ∃ k, s.key k = true)) ∧
    (s.mode = .halted → t.mode = .halted ∧ t.err = s.err) ∧
    (t.mode ≠ .halted → t.err = s.err)

/-- FB_CHANGED is 1 after exactly the ticks that executed `00E0` or `Dxyn`, and a REPORT is emitted by exactly the ticks that
decoded an unsupported opcode (R100; decision D27). The event is held until the next tick clears it (the model's choice, log
entry 2). -/
def Obligations.OutputsNameTheTicksThatRaiseThem : Prop :=
  ∀ s t : State, step s = .next t →
    (t.fbChanged = true ↔ ∃ i, s.current = some i ∧ i.writesDisplay = true) ∧
    (t.report ≠ none ↔ s.mode = .running ∧ decodeWord s.fetchWord = none)

/-! ### What no other instruction writes -/

/-- The display is written only by `00E0` and `Dxyn` (spec/10_state.md R29). -/
def Obligations.OnlyClearAndDrawWriteTheDisplay : Prop :=
  ∀ s t : State, step s = .next t → (∀ i, s.current = some i → i.writesDisplay = false) → Part.display.Same s t

/-- Memory is written only by `Fx33` and `Fx55`: after any other tick every byte reads as before (spec/20_memory.md R54). -/
def Obligations.OnlyTheTwoStoresWriteMemory : Prop :=
  ∀ s t : State, step s = .next t → (∀ i, s.current = some i → i.storesToMemory = false) → Part.memory.Same s t

/-- The stack and SP are written only by `2nnn` and `00EE` (spec/10_state.md R26). -/
def Obligations.OnlyCallAndReturnWriteTheStack : Prop :=
  ∀ s t : State, step s = .next t → (∀ i, s.current = some i → i.usesStack = false) → Part.stack.Same s t

/-- I is written only by `Annn`, `Fx1E`, `Fx29` and `Fx65` (spec/10_state.md R23). -/
def Obligations.OnlyFourInstructionsWriteTheIndex : Prop :=
  ∀ s t : State, step s = .next t → (∀ i, s.current = some i → i.writesIndex = false) → t.i = s.i

/-- The core never writes KEYS: no tick changes a key (spec/10_state.md R30). -/
def Obligations.NoTickChangesAKey : Prop := ∀ s t : State, step s = .next t → Part.keys.Same s t

/-- Every instruction that R134 does not list leaves VF unchanged. -/
def Obligations.OnlyTheListedInstructionsWriteVF : Prop :=
  ∀ (i : Instr) (s t : State), exec i s = .next t → i.writesVF = false → t.reg vF = s.reg vF

/-- The pc result of every instruction is one of four (R95; decision D8 for the reduction modulo 4096): + 2; + 4 for a skip;
overwritten by `1nnn`, `2nnn`, `00EE`, `Bnnn` with their target; unchanged for `Fx0A` with no key down and for a fatal error. -/
def Obligations.PcHasTheFourOutcomes : Prop :=
  ∀ (i : Instr) (s t : State), exec i s = .next t →
    (i.overwritesPc = false ∧ PcPlus 2 s t) ∨
    (i.isSkip = true ∧ PcPlus 4 s t) ∨
    (∃ a, s.pcTarget i = some a ∧ t.pc.toNat = a % 4096) ∨
    (t.pc = s.pc ∧
      (((∃ x, i = .ldVxK x) ∧ (∀ k, s.key k = false) ∧ t.mode = .keyWait) ∨ (s.raisesFatal i ∧ t.mode = .halted)))

/-! ### What the state does not depend on -/

/-- The random source reaches nothing but `Cxnn`: a tick that does not execute one gives the same next state whatever the source
holds, and leaves the source as it was (R93, R102). The source is the model's queue and counter (log entry 3). -/
def Obligations.RandomSourceReachesOnlyCxnn : Prop :=
  ∀ (s t : State) (bytes : List Byte) (n : Nat), (∀ x nn, s.current ≠ some (.rnd x nn)) → step s = .next t →
    step { s with rndIn := bytes, rndDraws := n } = .next { t with rndIn := bytes, rndDraws := n }

/-- The sound timer is read by no instruction: two states that differ only in ST go to states that differ only in ST
(spec/10_state.md R28; spec/45_keys_timers.md R177). -/
def Obligations.SoundTimerIsReadByNoInstruction : Prop :=
  ∀ (s t : State) (b : Byte), step s = .next t → ∃ c, step { s with st := b } = .next { t with st := c }

/-! ### Control transfer (spec/41_flow.md) -/

/-- `1nnn` sets pc to nnn and `Bnnn` to V0 + nnn modulo 4096, whatever the digits of nnn; nothing else changes (R106, R112;
decision D8 for the reduction). -/
def Obligations.JumpsSetThePc : Prop :=
  ∀ (nnn : Addr) (s : State),
    (∃ t, exec (.jp nnn) s = .next t ∧ t.pc = nnn ∧ SameBut [] s t) ∧
    (∃ t, exec (.jpV0 nnn) s = .next t ∧ t.pc.toNat = ((s.reg 0).toNat + nnn.toNat) % 4096 ∧ SameBut [] s t)

/-- `2nnn` with room on the stack pushes its own address and goes to nnn; no other entry changes (R107; decision D20). -/
def Obligations.CallPushesItsOwnAddress : Prop :=
  ∀ (nnn : Addr) (s : State), s.sp ≠ 16 → ∃ t, exec (.call nnn) s = .next t ∧ t.pc = nnn ∧ t.sp.val = s.sp.val + 1 ∧
    (∀ j : Fin 16, (t.stackEntry j).toNat = if j.val = s.sp.val then s.pc.toNat else (s.stackEntry j).toNat) ∧
    SameBut [.stack] s t

/-- `00EE` with an entry on the stack goes to that entry plus 2 and leaves the entry where it is (R105; decision D20). -/
def Obligations.ReturnGoesPastTheCall : Prop :=
  ∀ s : State, s.sp ≠ 0 → ∃ t, exec .ret s = .next t ∧ t.sp.val + 1 = s.sp.val ∧
    (∀ j : Fin 16, j.val + 1 = s.sp.val → t.pc.toNat = ((s.stackEntry j).toNat + 2) % 4096) ∧
    (∀ j, t.stackEntry j = s.stackEntry j) ∧ SameBut [.stack] s t

/-- A return undoes a call, whatever the subroutine has done to the rest of the state: pc comes back to the word after the call
and SP to what it was (R105, R107, R114). -/
def Obligations.ReturnUndoesCall : Prop :=
  ∀ (nnn : Addr) (s t u : State), s.sp ≠ 16 → exec (.call nnn) s = .next t → Part.stack.Same t u →
    ∃ w, exec .ret u = .next w ∧ PcPlus 2 s w ∧ w.sp = s.sp

/-- A `2nnn` executed with the stack full raises Fatal(STACK_OVERFLOW), a `00EE` with the stack empty Fatal(STACK_UNDERFLOW)
(spec/60_exceptions.md R187, R188), which sets ERR and MODE and leaves pc and everything else (R189). -/
def Obligations.StackErrorsHaltTheCore : Prop :=
  ∀ s : State,
    (∀ nnn : Addr, s.sp = 16 → ∃ t, exec (.call nnn) s = .next t ∧ t.err = .stackOverflow ∧ t.mode = .halted ∧ t.pc = s.pc ∧
      t.errOut = 1 ∧ t.modeOut = 2 ∧ SameBut [.err, .mode] s t) ∧
    (s.sp = 0 → ∃ t, exec .ret s = .next t ∧ t.err = .stackUnderflow ∧ t.mode = .halted ∧ t.pc = s.pc ∧
      t.errOut = 2 ∧ t.modeOut = 2 ∧ SameBut [.err, .mode] s t)

/-- A fatal tick has no timer phase: DT and ST are as before it, and pc and everything else but ERR, MODE and the tick's opening
writes (R189, R91; decision D18). Only RESET then leaves HALTED: no other host action does, a tick included, and ERR stays (R190;
decision D19). -/
def Obligations.FatalTickKeepsTheTimers : Prop :=
  (∀ s t : State, s.mode = .running → step s = .next t → t.mode = .halted →
    t.pc = s.pc ∧ SameBut [.err, .mode, .started, .fbChanged, .report] s t) ∧
  (∀ (a : HostAction) (s t : State), a ≠ .reset → s.mode = .halted → hostStep a s = .next t →
    t.mode = .halted ∧ t.err = s.err) ∧
  (∀ s : State, ∃ t, hostStep .reset s = .next t ∧ t.mode = .running ∧ t.err = .noError)

/-- `3xnn` skips when `V[x]` equals nn and `4xnn` when it differs; nothing but pc changes (R108, R109). -/
def Obligations.ByteSkipsCompareTheRegister : Prop :=
  ∀ (x : Nibble) (nn : Byte) (s : State),
    (∃ t, exec (.seByte x nn) s = .next t ∧ PcPlus (if s.reg x = nn then 4 else 2) s t ∧ SameBut [] s t) ∧
    (∃ t, exec (.sneByte x nn) s = .next t ∧ PcPlus (if s.reg x ≠ nn then 4 else 2) s t ∧ SameBut [] s t)

/-- `5xy0` skips when the registers are equal and `9xy0` when they differ; nothing but pc changes (R110, R111). -/
def Obligations.RegisterSkipsCompareTheRegisters : Prop :=
  ∀ (x y : Nibble) (s : State),
    (∃ t, exec (.seReg x y) s = .next t ∧ PcPlus (if s.reg x = s.reg y then 4 else 2) s t ∧ SameBut [] s t) ∧
    (∃ t, exec (.sneReg x y) s = .next t ∧ PcPlus (if s.reg x ≠ s.reg y then 4 else 2) s t ∧ SameBut [] s t)

/-! ### Register and ALU instructions (spec/42_alu.md) -/

/-- `6xnn` and `8xy0` write `V[x]` and nothing else (R120, R122). -/
def Obligations.LoadsWriteOneRegister : Prop :=
  ∀ (x y : Nibble) (nn : Byte) (s : State),
    (∃ t, exec (.ldByte x nn) s = .next t ∧ t.reg x = nn ∧ PcPlus 2 s t ∧ SameButReg x [] s t) ∧
    (∃ t, exec (.ldReg x y) s = .next t ∧ t.reg x = s.reg y ∧ PcPlus 2 s t ∧ SameButReg x [] s t)

/-- `7xnn` adds modulo 256; `8xy1`, `8xy2`, `8xy3` write the OR, AND, XOR, bit by bit. None produces a flag: VF keeps its value
unless it is the destination (R121, R123 to R125; decision D11). -/
def Obligations.AddImmediateAndLogicSetNoFlag : Prop :=
  ∀ (x y : Nibble) (nn : Byte) (s : State),
    (∃ t, exec (.addByte x nn) s = .next t ∧ (t.reg x).toNat = ((s.reg x).toNat + nn.toNat) % 256 ∧
      PcPlus 2 s t ∧ SameButReg x [] s t) ∧
    (∃ t, exec (.orReg x y) s = .next t ∧ (∀ b, (t.reg x).getLsbD b = ((s.reg x).getLsbD b || (s.reg y).getLsbD b)) ∧
      PcPlus 2 s t ∧ SameButReg x [] s t) ∧
    (∃ t, exec (.andReg x y) s = .next t ∧ (∀ b, (t.reg x).getLsbD b = ((s.reg x).getLsbD b && (s.reg y).getLsbD b)) ∧
      PcPlus 2 s t ∧ SameButReg x [] s t) ∧
    (∃ t, exec (.xorReg x y) s = .next t ∧ (∀ b, (t.reg x).getLsbD b = ((s.reg x).getLsbD b ^^ (s.reg y).getLsbD b)) ∧
      PcPlus 2 s t ∧ SameButReg x [] s t)

/-- `8xy4` writes the sum modulo 256 to `V[x]`, then the carry of the old operands to VF; x = 0xF keeps the carry (R126). -/
def Obligations.AddWritesSumThenCarry : Prop :=
  ∀ (x y : Nibble) (s : State), ∃ t, exec (.addReg x y) s = .next t ∧
    (x ≠ vF → (t.reg x).toNat = ((s.reg x).toNat + (s.reg y).toNat) % 256) ∧
    t.reg vF = (if (s.reg x).toNat + (s.reg y).toNat > 255 then 1 else 0) ∧
    (∀ r, r ≠ x → r ≠ vF → t.reg r = s.reg r) ∧ PcPlus 2 s t ∧ SameBut [.regs] s t

/-- `8xy5` writes `V[x] - V[y]` and `8xy7` `V[y] - V[x]`, modulo 256, then 1 to VF exactly when no borrow occurred, from the old
operands; x = 0xF keeps the flag (R127, R129). -/
def Obligations.SubtractionsWriteDifferenceThenNoBorrow : Prop :=
  ∀ (x y : Nibble) (s : State),
    (∃ t, exec (.subReg x y) s = .next t ∧
      (x ≠ vF → ((t.reg x).toNat : Int) = ((s.reg x).toNat - (s.reg y).toNat : Int) % 256) ∧
      t.reg vF = (if (s.reg x).toNat ≥ (s.reg y).toNat then 1 else 0) ∧
      (∀ r, r ≠ x → r ≠ vF → t.reg r = s.reg r) ∧ PcPlus 2 s t ∧ SameBut [.regs] s t) ∧
    (∃ t, exec (.subnReg x y) s = .next t ∧
      (x ≠ vF → ((t.reg x).toNat : Int) = ((s.reg y).toNat - (s.reg x).toNat : Int) % 256) ∧
      t.reg vF = (if (s.reg y).toNat ≥ (s.reg x).toNat then 1 else 0) ∧
      (∀ r, r ≠ x → r ≠ vF → t.reg r = s.reg r) ∧ PcPlus 2 s t ∧ SameBut [.regs] s t)

/-- `8xy6` halves `V[x]` and `8xyE` doubles it modulo 256, whatever y is, then the bit shifted out goes to VF, which keeps it when
x = 0xF (R128, R130; the order is decision D10). -/
def Obligations.ShiftsWriteResultThenTheBitShiftedOut : Prop :=
  ∀ (x y : Nibble) (s : State),
    (∃ t, exec (.shr x y) s = .next t ∧ (x ≠ vF → (t.reg x).toNat = (s.reg x).toNat / 2) ∧
      (t.reg vF).toNat = (s.reg x).toNat % 2 ∧
      (∀ r, r ≠ x → r ≠ vF → t.reg r = s.reg r) ∧ PcPlus 2 s t ∧ SameBut [.regs] s t) ∧
    (∃ t, exec (.shl x y) s = .next t ∧ (x ≠ vF → (t.reg x).toNat = (s.reg x).toNat * 2 % 256) ∧
      (t.reg vF).toNat = (s.reg x).toNat / 128 ∧
      (∀ r, r ≠ x → r ≠ vF → t.reg r = s.reg r) ∧ PcPlus 2 s t ∧ SameBut [.regs] s t)

/-- `Cxnn` writes a random byte masked by nn; the byte is the one on the RND input where the host has put one there, which the
draw takes, and otherwise any byte at all (R131; decision D30; log entry 3). -/
def Obligations.RandomByteIsMasked : Prop :=
  ∀ (x : Nibble) (nn : Byte) (s : State), ∃ r t, exec (.rnd x nn) s = .next t ∧ t.reg x = r &&& nn ∧
    (∀ b bs, s.rndIn = b :: bs → r = b ∧ t.rndIn = bs) ∧ (nn = 0 → t.reg x = 0) ∧
    PcPlus 2 s t ∧ SameButReg x [.random] s t

/-! ### Index register and memory (spec/43_index_memory.md) -/

/-- `Annn` sets I to nnn, and `Fx29` sets it to 0x050 + 5 * `V[x]` for the whole of `V[x]` (R140, R142). -/
def Obligations.IndexLoadsSetTheIndex : Prop :=
  ∀ (nnn : Addr) (x : Nibble) (s : State),
    (∃ t, exec (.ldI nnn) s = .next t ∧ t.i.toNat = nnn.toNat ∧ PcPlus 2 s t ∧ SameBut [.index] s t) ∧
    (∃ t, exec (.ldF x) s = .next t ∧ t.i.toNat = 0x050 + 5 * (s.reg x).toNat ∧ PcPlus 2 s t ∧ SameBut [.index] s t)

/-- `Fx1E` adds `V[x]` to I modulo 4096 and sets no flag (R141; decision D11). -/
def Obligations.AddToIndexWrapsWithoutFlag : Prop :=
  ∀ (x : Nibble) (s : State), ∃ t, exec (.addI x) s = .next t ∧
    t.i.toNat = (s.i.toNat + (s.reg x).toNat) % 4096 ∧ PcPlus 2 s t ∧ SameBut [.index] s t

/-- `Fx33` stores the hundreds, tens and ones digit of `V[x]` at I, I + 1, I + 2 modulo 4096; every other byte, I and the registers
are unchanged (R143), in every state whose memory is canonical. -/
def Obligations.DecimalStoreWritesThreeDigits : Prop :=
  ∀ (x : Nibble) (s : State), MemoryCanonical s → ∃ t, exec (.ldB x) s = .next t ∧
    (t.readByte (s.indexAddr 0)).toNat = (s.reg x).toNat / 100 ∧
    (t.readByte (s.indexAddr 1)).toNat = (s.reg x).toNat / 10 % 10 ∧
    (t.readByte (s.indexAddr 2)).toNat = (s.reg x).toNat % 10 ∧
    (∀ a, (∀ k < 3, wrapAddr a ≠ s.indexAddr k) → t.readByte a = s.readByte a) ∧
    PcPlus 2 s t ∧ SameBut [.memory] s t

/-- `Fx55` stores V0 to Vx at I to I + x modulo 4096; every other byte and I are unchanged (R144; decision D11 for I), in every
state whose memory is canonical. -/
def Obligations.BlockStoreWritesTheRegisters : Prop :=
  ∀ (x : Nibble) (s : State), MemoryCanonical s → ∃ t, exec (.storeRegs x) s = .next t ∧
    (∀ r, r ≤ x → t.readByte (s.indexAddr r.toNat) = s.reg r) ∧
    (∀ a, (∀ k ≤ x.toNat, wrapAddr a ≠ s.indexAddr k) → t.readByte a = s.readByte a) ∧
    PcPlus 2 s t ∧ SameBut [.memory] s t

/-- `Fx65` loads V0 to Vx from I to I + x modulo 4096, then advances I by x + 1; the registers above x and all of memory are
unchanged (R145; decision D12 for the reduction of I). -/
def Obligations.BlockLoadReadsTheRegistersAndAdvancesTheIndex : Prop :=
  ∀ (x : Nibble) (s : State), ∃ t, exec (.loadRegs x) s = .next t ∧
    (∀ r, t.reg r = if r ≤ x then s.readByte (s.indexAddr r.toNat) else s.reg r) ∧
    t.i.toNat = (s.i.toNat + x.toNat + 1) % 4096 ∧ PcPlus 2 s t ∧ SameBut [.regs, .index] s t

/-- What `Fx55` has stored, `Fx65` at the same I loads back: the registers are as before and I has moved past the block (R144,
R145). -/
def Obligations.BlockLoadReadsBackTheBlockStore : Prop :=
  ∀ (x : Nibble) (s t : State), MemoryCanonical s → exec (.storeRegs x) s = .next t →
    ∃ u, exec (.loadRegs x) t = .next u ∧ (∀ r, u.reg r = s.reg r) ∧ u.i.toNat = (s.i.toNat + x.toNat + 1) % 4096

/-! ### Display (spec/44_display.md) -/

/-- `00E0` clears every cell and raises FB_CHANGED; VF is not changed (R158; decision D27 for FB_CHANGED). -/
def Obligations.ClearBlanksTheDisplay : Prop :=
  ∀ s : State, ∃ t, exec .cls s = .next t ∧ (∀ x y, t.fbOut x y = false) ∧ t.fbChanged = true ∧ PcPlus 2 s t ∧
    SameBut [.display, .fbChanged] s t

/-- The blit unit, for sprites of up to 15 rows: each cell's new value is its old value XOR the sprite bit that falls on it,
wrapping on both axes (R155), and the collision bit is 1 exactly when at least one cell changed from 1 to 0 (R156). -/
def Obligations.BlitXorsEachCellAndDetectsCollision : Prop :=
  ∀ (fb : Display) (x0 y0 : Byte) (rows : List Byte), rows.length ≤ 15 →
    (∀ cx cy, Display.cell (drawSprite fb x0 y0 rows).fb cx cy =
      (Display.cell fb cx cy ^^ spriteBitAt x0 y0 rows cx cy)) ∧
    ((drawSprite fb x0 y0 rows).col = true ↔
      ∃ cx cy, Display.cell fb cx cy = true ∧ Display.cell (drawSprite fb x0 y0 rows).fb cx cy = false)

/-- Drawing the same sprite at the same origin twice restores every cell, and the second draw collides exactly when the first left
a cell of the sprite set (R159's "Draw idempotence under double-XOR"). -/
def Obligations.DrawingTwiceRestoresTheDisplay : Prop :=
  ∀ (fb : Display) (x0 y0 : Byte) (rows : List Byte), rows.length ≤ 15 →
    let once := drawSprite fb x0 y0 rows
    let twice := drawSprite once.fb x0 y0 rows
    twice.fb = fb ∧
    (twice.col = true ↔ ∃ cx cy, spriteBitAt x0 y0 rows cx cy = true ∧ Display.cell once.fb cx cy = true)

/-- `Dxyn` draws the n bytes at I modulo 4096 at the origin (`V[x]`, `V[y]`), every operand read first, then sets VF to the
collision; I and memory are not changed, and n = 0 draws nothing and clears VF (R159; decision D13 for n = 0). -/
def Obligations.DrawPutsTheSpriteAtTheOrigin : Prop :=
  ∀ (x y n : Nibble) (s : State),
    let rows := (List.range n.toNat).map fun r => s.readByte (s.indexAddr r)
    ∃ t, exec (.drw x y n) s = .next t ∧
      (∀ cx cy, t.fbOut cx cy = (s.fbOut cx cy ^^ spriteBitAt (s.reg x) (s.reg y) rows cx cy)) ∧
      t.reg vF ≤ 1 ∧ (t.reg vF = 1 ↔ ∃ cx cy, s.fbOut cx cy = true ∧ t.fbOut cx cy = false) ∧
      (n = 0 → t.reg vF = 0 ∧ ∀ cx cy, t.fbOut cx cy = s.fbOut cx cy) ∧
      t.fbChanged = true ∧ PcPlus 2 s t ∧ SameButReg vF [.display, .fbChanged] s t

/-! ### Keypad and timers (spec/45_keys_timers.md) -/

/-- `AnyPressed()` returns the smallest k with `KEYS[k] = 1`, or none if every bit is 0 (R171). -/
def Obligations.AnyPressedIsTheLowestKey : Prop :=
  ∀ s : State, (∀ k, s.anyPressed = some k ↔ s.key k = true ∧ ∀ j < k, s.key j = false) ∧
    (s.anyPressed = none ↔ ∀ k, s.key k = false)

/-- `Ex9E` skips when the key `V[x]` is down and `ExA1` when it is not; a value above 0xF is no key (R170, R172, R173; decision
D14); nothing but pc changes. -/
def Obligations.KeySkipsTestTheKey : Prop :=
  ∀ (x : Nibble) (s : State), ∃ down : Bool,
    (∀ h : (s.reg x).toNat < 16, down = s.key ⟨(s.reg x).toNat, h⟩) ∧ (16 ≤ (s.reg x).toNat → down = false) ∧
    (∃ t, exec (.skp x) s = .next t ∧ PcPlus (if down then 4 else 2) s t ∧ SameBut [] s t) ∧
    (∃ t, exec (.sknp x) s = .next t ∧ PcPlus (if down then 2 else 4) s t ∧ SameBut [] s t)

/-- `Fx07` reads DT, `Fx15` writes it, `Fx18` writes ST, and nothing else changes; the tick that runs one counts the timers down
after it, so `Fx07` reads the value before the countdown and a written value is one lower at the end of the tick (R174, R176,
R177). -/
def Obligations.TimerInstructionsMoveOneByte : Prop :=
  ∀ (x : Nibble) (s : State),
    (∃ t, exec (.ldVxDt x) s = .next t ∧ t.reg x = s.dt ∧ PcPlus 2 s t ∧ SameButReg x [] s t) ∧
    (∃ t, exec (.ldDtVx x) s = .next t ∧ t.dt = s.reg x ∧ PcPlus 2 s t ∧ SameBut [.delay] s t) ∧
    (∃ t, exec (.ldStVx x) s = .next t ∧ t.st = s.reg x ∧ PcPlus 2 s t ∧ SameBut [.sound] s t) ∧
    (s.current = some (.ldVxDt x) → ∃ t, step s = .next t ∧ t.reg x = s.dt ∧ t.dt.toNat = s.dt.toNat - 1) ∧
    (s.current = some (.ldDtVx x) → ∃ t, step s = .next t ∧ t.dt.toNat = (s.reg x).toNat - 1) ∧
    (s.current = some (.ldStVx x) → ∃ t, step s = .next t ∧ t.stOut.toNat = (s.reg x).toNat - 1)

/-- `Fx0A` with a key down stores the lowest code and goes on in the same tick; with none down it latches x in WAIT_REG and enters
KEY_WAIT with pc unchanged (R175; decisions D15, D16). -/
def Obligations.KeyWaitInstructionStoresOrWaits : Prop :=
  ∀ (x : Nibble) (s : State),
    (∀ k : Fin 16, s.key k = true → (∀ j < k, s.key j = false) →
      ∃ t, exec (.ldVxK x) s = .next t ∧ (t.reg x).toNat = k.val ∧ PcPlus 2 s t ∧ SameButReg x [] s t) ∧
    ((∀ k, s.key k = false) →
      ∃ t, exec (.ldVxK x) s = .next t ∧ t.waitReg = x ∧ t.mode = .keyWait ∧ t.modeOut = 1 ∧ t.pc = s.pc ∧
        SameBut [.mode, .waitReg] s t)

/-! ### The parameters (spec/00_scope.md R8): the random source and the font -/

/-- A byte on the RND input goes behind those already waiting, and nothing else changes (spec/10_state.md R38). That the input is
a queue is the model's choice (log entry 3). -/
def Obligations.RandomInputQueuesOneByte : Prop :=
  ∀ (s : State) (b : Byte), ∃ t, hostStep (.rnd b) s = .next t ∧ t.rndIn = s.rndIn ++ [b] ∧ t.rndDraws = s.rndDraws ∧
    t.pc = s.pc ∧ SameBut [.random] s t

/-- FONT_ROM is a parameter of the machine: no tick and no other host action changes it, RESET included. -/
def Obligations.FontRomIsFixed : Prop :=
  ∀ (a : HostAction) (s t : State), hostStep a s = .next t → t.fontRom = s.fontRom
end

