-- ==== Sys2Proof/Laws/Decode.lean ====
section
/-! SUPPORT. The fields of the words the encoder builds, the bytes of a word, and well-formedness. -/

namespace Sys2Proof

/-- The operand types carry the widths, so every instruction is well-formed. -/
theorem Instr.wf_all (i : Instr) : i.wf = true := by
  have h : ∀ {n : Nat} (v : BitVec n), fieldFits (v.toNat, n) = true := fun v => by simpa [fieldFits] using v.isLt
  cases i <;> simp [Instr.wf, Instr.fields, h]

/-! ### Fields of a word (spec/30_encoding.md R71, R72) -/

section Fields

variable (a x y n : Nibble) (nn : Byte) (nnn : Addr)

/-- The bits of format NNN. -/
theorem getLsbD_wordNNN (i : Nat) :
    (wordNNN a nnn).getLsbD i = if i < 12 then nnn.getLsbD i else a.getLsbD (i - 12) := BitVec.getLsbD_append

/-- The bits of formats XNN and XFF. -/
theorem getLsbD_wordXNN (i : Nat) :
    (wordXNN a x nn).getLsbD i = if i < 8 then nn.getLsbD i else if i < 12 then x.getLsbD (i - 8) else a.getLsbD (i - 12) := by
  have h : (wordXNN a x nn).getLsbD i = if i < 12 then (x ++ nn).getLsbD i else a.getLsbD (i - 12) := BitVec.getLsbD_append
  rw [h, BitVec.getLsbD_append]
  split <;> split <;> first | rfl | omega

/-- The bits of formats XYF and XYN. -/
theorem getLsbD_wordXYN (i : Nat) :
    (wordXYN a x y n).getLsbD i =
      if i < 4 then n.getLsbD i else if i < 8 then y.getLsbD (i - 4) else if i < 12 then x.getLsbD (i - 8)
      else a.getLsbD (i - 12) := by
  have h : (wordXYN a x y n).getLsbD i = if i < 12 then (x ++ (y ++ n)).getLsbD i else a.getLsbD (i - 12) :=
    BitVec.getLsbD_append
  have h' : (x ++ (y ++ n)).getLsbD i = if i < 8 then (y ++ n).getLsbD i else x.getLsbD (i - 8) := BitVec.getLsbD_append
  rw [h, h', BitVec.getLsbD_append]
  split <;> split <;> (try split) <;> first | rfl | omega

@[simp] theorem opA_wordNNN : opA (wordNNN a nnn) = a := by
  ext i hi
  simp [opA, getLsbD_wordNNN, BitVec.getLsbD_eq_getElem hi]
@[simp] theorem opNNN_wordNNN : opNNN (wordNNN a nnn) = nnn := by
  ext i hi
  simp [opNNN, getLsbD_wordNNN, hi]

@[simp] theorem opA_wordXNN : opA (wordXNN a x nn) = a := by
  ext i hi
  simp [opA, getLsbD_wordXNN, show ¬ 12 + i < 8 by omega, BitVec.getLsbD_eq_getElem hi]
@[simp] theorem opX_wordXNN : opX (wordXNN a x nn) = x := by
  ext i hi
  simp [opX, getLsbD_wordXNN, show 8 + i < 12 by omega, BitVec.getLsbD_eq_getElem hi]
@[simp] theorem opNN_wordXNN : opNN (wordXNN a x nn) = nn := by
  ext i hi
  simp [opNN, getLsbD_wordXNN, hi]

@[simp] theorem opA_wordXYN : opA (wordXYN a x y n) = a := by
  ext i hi
  simp [opA, getLsbD_wordXYN, show ¬ 12 + i < 4 by omega, show ¬ 12 + i < 8 by omega, BitVec.getLsbD_eq_getElem hi]
@[simp] theorem opX_wordXYN : opX (wordXYN a x y n) = x := by
  ext i hi
  simp [opX, getLsbD_wordXYN, show ¬ 8 + i < 4 by omega, show 8 + i < 12 by omega, BitVec.getLsbD_eq_getElem hi]
@[simp] theorem opY_wordXYN : opY (wordXYN a x y n) = y := by
  ext i hi
  simp [opY, getLsbD_wordXYN, show 4 + i < 8 by omega, BitVec.getLsbD_eq_getElem hi]
@[simp] theorem opN_wordXYN : opN (wordXYN a x y n) = n := by
  ext i hi
  simp [opN, getLsbD_wordXYN, hi]

end Fields

/-! ### A word from its fields -/

/-- A word is its first digit and its address field (R71). -/
theorem wordNNN_fields (op : Opcode) : wordNNN (opA op) (opNNN op) = op := by
  apply BitVec.eq_of_getLsbD_eq
  intro i hi
  rw [getLsbD_wordNNN]
  split
  · simp [opNNN, *]
  · simp [opA, show i - 12 < 4 by omega, show 12 + (i - 12) = i by omega]

/-- A word is its first two digits and its low byte (R71). -/
theorem wordXNN_fields (op : Opcode) : wordXNN (opA op) (opX op) (opNN op) = op := by
  apply BitVec.eq_of_getLsbD_eq
  intro i hi
  rw [getLsbD_wordXNN]
  split
  · simp [opNN, *]
  · split
    · simp [opX, show i - 8 < 4 by omega, show 8 + (i - 8) = i by omega]
    · simp [opA, show i - 12 < 4 by omega, show 12 + (i - 12) = i by omega]

/-- A word is its four digits (R71). -/
theorem wordXYN_fields (op : Opcode) : wordXYN (opA op) (opX op) (opY op) (opN op) = op := by
  apply BitVec.eq_of_getLsbD_eq
  intro i hi
  rw [getLsbD_wordXYN]
  split
  · simp [opN, *]
  · split
    · simp [opY, show i - 4 < 4 by omega, show 4 + (i - 4) = i by omega]
    · split
      · simp [opX, show i - 8 < 4 by omega, show 8 + (i - 8) = i by omega]
      · simp [opA, show i - 12 < 4 by omega, show 12 + (i - 12) = i by omega]

/-- The bytes of a word give it back, the high byte first (spec/20_memory.md R52). -/
@[simp] theorem wordOfBytes_bytesOfWord (op : Opcode) :
    wordOfBytes (op.extractLsb' 8 8) (op.extractLsb' 0 8) = op := by
  apply BitVec.eq_of_getLsbD_eq
  intro i hi
  have h : ∀ a b : Byte, (wordOfBytes a b).getLsbD i = if i < 8 then b.getLsbD i else a.getLsbD (i - 8) :=
    fun _ _ => BitVec.getLsbD_append
  rw [h]
  split
  · simp [*]
  · simp [show i - 8 < 8 by omega, show 8 + (i - 8) = i by omega]

end Sys2Proof
end

