-- ==== Sys2Proof/Laws/State.lean ====
section
/-! SUPPORT. One lemma per field per update, true by rfl: no later proof unfolds a record update. The updates that are made of
others (`advance`, `skipIf`, `result`, …) are rewritten to them. -/

namespace Sys2Proof.Machine.State

variable (s : State)

/-! ### Updates made of others -/

@[simp] theorem advance_eq (n : Nat) : s.advance n = s.setPc (s.pc.toNat + n) := rfl
@[simp] theorem skipIf_eq (c : Bool) : s.skipIf c = s.setPc (s.pc.toNat + if c then 4 else 2) := rfl
@[simp] theorem unsupported_eq (op : Opcode) : s.unsupported op = (s.emit ⟨op, s.pc⟩).setPc (s.pc.toNat + 2) := rfl
@[simp] theorem storeKey_eq (x : Nibble) (k : Fin 16) : s.storeKey x k = (s.setReg x (keyByte k)).setPc (s.pc.toNat + 2) := rfl
@[simp] theorem result_eq (x : Nibble) (r : Byte) : s.result x r = (s.setReg x r).setPc (s.pc.toNat + 2) := rfl
@[simp] theorem flaggedResult_eq (x : Nibble) (r f : Byte) :
    s.flaggedResult x r f = ((s.setReg x r).setReg vF f).setPc (s.pc.toNat + 2) := rfl
@[simp] theorem placeWord_eq (op : Opcode) : s.placeWord op = (s.storeBytes s.pc.toNat (bytesOfWord op)).resume := rfl

/-! ### setReg -/

@[simp] theorem setReg_v (x : Nibble) (b : Byte) : (s.setReg x b).v = s.v.set x.toNat b x.isLt := rfl
@[simp] theorem setReg_i (x : Nibble) (b : Byte) : (s.setReg x b).i = s.i := rfl
@[simp] theorem setReg_pc (x : Nibble) (b : Byte) : (s.setReg x b).pc = s.pc := rfl
@[simp] theorem setReg_stack (x : Nibble) (b : Byte) : (s.setReg x b).stack = s.stack := rfl
@[simp] theorem setReg_sp (x : Nibble) (b : Byte) : (s.setReg x b).sp = s.sp := rfl
@[simp] theorem setReg_dt (x : Nibble) (b : Byte) : (s.setReg x b).dt = s.dt := rfl
@[simp] theorem setReg_st (x : Nibble) (b : Byte) : (s.setReg x b).st = s.st := rfl
@[simp] theorem setReg_fb (x : Nibble) (b : Byte) : (s.setReg x b).fb = s.fb := rfl
@[simp] theorem setReg_keys (x : Nibble) (b : Byte) : (s.setReg x b).keys = s.keys := rfl
@[simp] theorem setReg_mem (x : Nibble) (b : Byte) : (s.setReg x b).mem = s.mem := rfl
@[simp] theorem setReg_mode (x : Nibble) (b : Byte) : (s.setReg x b).mode = s.mode := rfl
@[simp] theorem setReg_waitReg (x : Nibble) (b : Byte) : (s.setReg x b).waitReg = s.waitReg := rfl
@[simp] theorem setReg_err (x : Nibble) (b : Byte) : (s.setReg x b).err = s.err := rfl
@[simp] theorem setReg_started (x : Nibble) (b : Byte) : (s.setReg x b).started = s.started := rfl
@[simp] theorem setReg_fbChanged (x : Nibble) (b : Byte) : (s.setReg x b).fbChanged = s.fbChanged := rfl
@[simp] theorem setReg_report (x : Nibble) (b : Byte) : (s.setReg x b).report = s.report := rfl
@[simp] theorem setReg_rndIn (x : Nibble) (b : Byte) : (s.setReg x b).rndIn = s.rndIn := rfl
@[simp] theorem setReg_rndDraws (x : Nibble) (b : Byte) : (s.setReg x b).rndDraws = s.rndDraws := rfl
@[simp] theorem setReg_fontRom (x : Nibble) (b : Byte) : (s.setReg x b).fontRom = s.fontRom := rfl
@[simp] theorem setReg_readByte (x : Nibble) (b : Byte) (a : Nat) : (s.setReg x b).readByte a = s.readByte a := rfl
@[simp] theorem setReg_stackEntry (x : Nibble) (b : Byte) (j : Fin 16) : (s.setReg x b).stackEntry j = s.stackEntry j := rfl
@[simp] theorem setReg_key (x : Nibble) (b : Byte) (k : Fin 16) : (s.setReg x b).key k = s.key k := rfl
@[simp] theorem setReg_fetchWord (x : Nibble) (b : Byte) : (s.setReg x b).fetchWord = s.fetchWord := rfl

/-! ### setIndex -/

@[simp] theorem setIndex_v (n : Nat) : (s.setIndex n).v = s.v := rfl
@[simp] theorem setIndex_i (n : Nat) : (s.setIndex n).i = BitVec.ofNat 16 (wrapAddr n) := rfl
@[simp] theorem setIndex_pc (n : Nat) : (s.setIndex n).pc = s.pc := rfl
@[simp] theorem setIndex_stack (n : Nat) : (s.setIndex n).stack = s.stack := rfl
@[simp] theorem setIndex_sp (n : Nat) : (s.setIndex n).sp = s.sp := rfl
@[simp] theorem setIndex_dt (n : Nat) : (s.setIndex n).dt = s.dt := rfl
@[simp] theorem setIndex_st (n : Nat) : (s.setIndex n).st = s.st := rfl
@[simp] theorem setIndex_fb (n : Nat) : (s.setIndex n).fb = s.fb := rfl
@[simp] theorem setIndex_keys (n : Nat) : (s.setIndex n).keys = s.keys := rfl
@[simp] theorem setIndex_mem (n : Nat) : (s.setIndex n).mem = s.mem := rfl
@[simp] theorem setIndex_mode (n : Nat) : (s.setIndex n).mode = s.mode := rfl
@[simp] theorem setIndex_waitReg (n : Nat) : (s.setIndex n).waitReg = s.waitReg := rfl
@[simp] theorem setIndex_err (n : Nat) : (s.setIndex n).err = s.err := rfl
@[simp] theorem setIndex_started (n : Nat) : (s.setIndex n).started = s.started := rfl
@[simp] theorem setIndex_fbChanged (n : Nat) : (s.setIndex n).fbChanged = s.fbChanged := rfl
@[simp] theorem setIndex_report (n : Nat) : (s.setIndex n).report = s.report := rfl
@[simp] theorem setIndex_rndIn (n : Nat) : (s.setIndex n).rndIn = s.rndIn := rfl
@[simp] theorem setIndex_rndDraws (n : Nat) : (s.setIndex n).rndDraws = s.rndDraws := rfl
@[simp] theorem setIndex_fontRom (n : Nat) : (s.setIndex n).fontRom = s.fontRom := rfl
@[simp] theorem setIndex_reg (n : Nat) (r : Nibble) : (s.setIndex n).reg r = s.reg r := rfl
@[simp] theorem setIndex_readByte (n : Nat) (a : Nat) : (s.setIndex n).readByte a = s.readByte a := rfl
@[simp] theorem setIndex_stackEntry (n : Nat) (j : Fin 16) : (s.setIndex n).stackEntry j = s.stackEntry j := rfl
@[simp] theorem setIndex_key (n : Nat) (k : Fin 16) : (s.setIndex n).key k = s.key k := rfl
@[simp] theorem setIndex_fetchWord (n : Nat) : (s.setIndex n).fetchWord = s.fetchWord := rfl

/-! ### setPc -/

@[simp] theorem setPc_v (n : Nat) : (s.setPc n).v = s.v := rfl
@[simp] theorem setPc_i (n : Nat) : (s.setPc n).i = s.i := rfl
@[simp] theorem setPc_pc (n : Nat) : (s.setPc n).pc = BitVec.ofNat 12 (wrapAddr n) := rfl
@[simp] theorem setPc_stack (n : Nat) : (s.setPc n).stack = s.stack := rfl
@[simp] theorem setPc_sp (n : Nat) : (s.setPc n).sp = s.sp := rfl
@[simp] theorem setPc_dt (n : Nat) : (s.setPc n).dt = s.dt := rfl
@[simp] theorem setPc_st (n : Nat) : (s.setPc n).st = s.st := rfl
@[simp] theorem setPc_fb (n : Nat) : (s.setPc n).fb = s.fb := rfl
@[simp] theorem setPc_keys (n : Nat) : (s.setPc n).keys = s.keys := rfl
@[simp] theorem setPc_mem (n : Nat) : (s.setPc n).mem = s.mem := rfl
@[simp] theorem setPc_mode (n : Nat) : (s.setPc n).mode = s.mode := rfl
@[simp] theorem setPc_waitReg (n : Nat) : (s.setPc n).waitReg = s.waitReg := rfl
@[simp] theorem setPc_err (n : Nat) : (s.setPc n).err = s.err := rfl
@[simp] theorem setPc_started (n : Nat) : (s.setPc n).started = s.started := rfl
@[simp] theorem setPc_fbChanged (n : Nat) : (s.setPc n).fbChanged = s.fbChanged := rfl
@[simp] theorem setPc_report (n : Nat) : (s.setPc n).report = s.report := rfl
@[simp] theorem setPc_rndIn (n : Nat) : (s.setPc n).rndIn = s.rndIn := rfl
@[simp] theorem setPc_rndDraws (n : Nat) : (s.setPc n).rndDraws = s.rndDraws := rfl
@[simp] theorem setPc_fontRom (n : Nat) : (s.setPc n).fontRom = s.fontRom := rfl
@[simp] theorem setPc_reg (n : Nat) (r : Nibble) : (s.setPc n).reg r = s.reg r := rfl
@[simp] theorem setPc_readByte (n : Nat) (a : Nat) : (s.setPc n).readByte a = s.readByte a := rfl
@[simp] theorem setPc_stackEntry (n : Nat) (j : Fin 16) : (s.setPc n).stackEntry j = s.stackEntry j := rfl
@[simp] theorem setPc_key (n : Nat) (k : Fin 16) : (s.setPc n).key k = s.key k := rfl

/-! ### storeBytes -/

@[simp] theorem storeBytes_v (n : Nat) (bs : List Byte) : (s.storeBytes n bs).v = s.v := rfl
@[simp] theorem storeBytes_i (n : Nat) (bs : List Byte) : (s.storeBytes n bs).i = s.i := rfl
@[simp] theorem storeBytes_pc (n : Nat) (bs : List Byte) : (s.storeBytes n bs).pc = s.pc := rfl
@[simp] theorem storeBytes_stack (n : Nat) (bs : List Byte) : (s.storeBytes n bs).stack = s.stack := rfl
@[simp] theorem storeBytes_sp (n : Nat) (bs : List Byte) : (s.storeBytes n bs).sp = s.sp := rfl
@[simp] theorem storeBytes_dt (n : Nat) (bs : List Byte) : (s.storeBytes n bs).dt = s.dt := rfl
@[simp] theorem storeBytes_st (n : Nat) (bs : List Byte) : (s.storeBytes n bs).st = s.st := rfl
@[simp] theorem storeBytes_fb (n : Nat) (bs : List Byte) : (s.storeBytes n bs).fb = s.fb := rfl
@[simp] theorem storeBytes_keys (n : Nat) (bs : List Byte) : (s.storeBytes n bs).keys = s.keys := rfl
@[simp] theorem storeBytes_mem (n : Nat) (bs : List Byte) : (s.storeBytes n bs).mem = Memory.writeBytes s.fontRom s.mem n bs := rfl
@[simp] theorem storeBytes_mode (n : Nat) (bs : List Byte) : (s.storeBytes n bs).mode = s.mode := rfl
@[simp] theorem storeBytes_waitReg (n : Nat) (bs : List Byte) : (s.storeBytes n bs).waitReg = s.waitReg := rfl
@[simp] theorem storeBytes_err (n : Nat) (bs : List Byte) : (s.storeBytes n bs).err = s.err := rfl
@[simp] theorem storeBytes_started (n : Nat) (bs : List Byte) : (s.storeBytes n bs).started = s.started := rfl
@[simp] theorem storeBytes_fbChanged (n : Nat) (bs : List Byte) : (s.storeBytes n bs).fbChanged = s.fbChanged := rfl
@[simp] theorem storeBytes_report (n : Nat) (bs : List Byte) : (s.storeBytes n bs).report = s.report := rfl
@[simp] theorem storeBytes_rndIn (n : Nat) (bs : List Byte) : (s.storeBytes n bs).rndIn = s.rndIn := rfl
@[simp] theorem storeBytes_rndDraws (n : Nat) (bs : List Byte) : (s.storeBytes n bs).rndDraws = s.rndDraws := rfl
@[simp] theorem storeBytes_fontRom (n : Nat) (bs : List Byte) : (s.storeBytes n bs).fontRom = s.fontRom := rfl
@[simp] theorem storeBytes_reg (n : Nat) (bs : List Byte) (r : Nibble) : (s.storeBytes n bs).reg r = s.reg r := rfl
@[simp] theorem storeBytes_stackEntry (n : Nat) (bs : List Byte) (j : Fin 16) : (s.storeBytes n bs).stackEntry j = s.stackEntry j := rfl
@[simp] theorem storeBytes_key (n : Nat) (bs : List Byte) (k : Fin 16) : (s.storeBytes n bs).key k = s.key k := rfl

/-! ### push -/

@[simp] theorem push_v (e : Word) : (s.push e).v = s.v := rfl
@[simp] theorem push_i (e : Word) : (s.push e).i = s.i := rfl
@[simp] theorem push_pc (e : Word) : (s.push e).pc = s.pc := rfl
@[simp] theorem push_stack (e : Word) : (s.push e).stack = s.stack.set (Fin.ofNat 16 s.sp.val).val e (Fin.ofNat 16 s.sp.val).isLt := rfl
@[simp] theorem push_sp (e : Word) : (s.push e).sp = Fin.ofNat 17 (s.sp.val + 1) := rfl
@[simp] theorem push_dt (e : Word) : (s.push e).dt = s.dt := rfl
@[simp] theorem push_st (e : Word) : (s.push e).st = s.st := rfl
@[simp] theorem push_fb (e : Word) : (s.push e).fb = s.fb := rfl
@[simp] theorem push_keys (e : Word) : (s.push e).keys = s.keys := rfl
@[simp] theorem push_mem (e : Word) : (s.push e).mem = s.mem := rfl
@[simp] theorem push_mode (e : Word) : (s.push e).mode = s.mode := rfl
@[simp] theorem push_waitReg (e : Word) : (s.push e).waitReg = s.waitReg := rfl
@[simp] theorem push_err (e : Word) : (s.push e).err = s.err := rfl
@[simp] theorem push_started (e : Word) : (s.push e).started = s.started := rfl
@[simp] theorem push_fbChanged (e : Word) : (s.push e).fbChanged = s.fbChanged := rfl
@[simp] theorem push_report (e : Word) : (s.push e).report = s.report := rfl
@[simp] theorem push_rndIn (e : Word) : (s.push e).rndIn = s.rndIn := rfl
@[simp] theorem push_rndDraws (e : Word) : (s.push e).rndDraws = s.rndDraws := rfl
@[simp] theorem push_fontRom (e : Word) : (s.push e).fontRom = s.fontRom := rfl
@[simp] theorem push_reg (e : Word) (r : Nibble) : (s.push e).reg r = s.reg r := rfl
@[simp] theorem push_readByte (e : Word) (a : Nat) : (s.push e).readByte a = s.readByte a := rfl
@[simp] theorem push_key (e : Word) (k : Fin 16) : (s.push e).key k = s.key k := rfl
@[simp] theorem push_fetchWord (e : Word) : (s.push e).fetchWord = s.fetchWord := rfl

/-! ### pop -/

@[simp] theorem pop_v : (s.pop).v = s.v := rfl
@[simp] theorem pop_i : (s.pop).i = s.i := rfl
@[simp] theorem pop_pc : (s.pop).pc = s.pc := rfl
@[simp] theorem pop_stack : (s.pop).stack = s.stack := rfl
@[simp] theorem pop_sp : (s.pop).sp = Fin.ofNat 17 (s.sp.val - 1) := rfl
@[simp] theorem pop_dt : (s.pop).dt = s.dt := rfl
@[simp] theorem pop_st : (s.pop).st = s.st := rfl
@[simp] theorem pop_fb : (s.pop).fb = s.fb := rfl
@[simp] theorem pop_keys : (s.pop).keys = s.keys := rfl
@[simp] theorem pop_mem : (s.pop).mem = s.mem := rfl
@[simp] theorem pop_mode : (s.pop).mode = s.mode := rfl
@[simp] theorem pop_waitReg : (s.pop).waitReg = s.waitReg := rfl
@[simp] theorem pop_err : (s.pop).err = s.err := rfl
@[simp] theorem pop_started : (s.pop).started = s.started := rfl
@[simp] theorem pop_fbChanged : (s.pop).fbChanged = s.fbChanged := rfl
@[simp] theorem pop_report : (s.pop).report = s.report := rfl
@[simp] theorem pop_rndIn : (s.pop).rndIn = s.rndIn := rfl
@[simp] theorem pop_rndDraws : (s.pop).rndDraws = s.rndDraws := rfl
@[simp] theorem pop_fontRom : (s.pop).fontRom = s.fontRom := rfl
@[simp] theorem pop_reg (r : Nibble) : (s.pop).reg r = s.reg r := rfl
@[simp] theorem pop_readByte (a : Nat) : (s.pop).readByte a = s.readByte a := rfl
@[simp] theorem pop_stackEntry (j : Fin 16) : (s.pop).stackEntry j = s.stackEntry j := rfl
@[simp] theorem pop_key (k : Fin 16) : (s.pop).key k = s.key k := rfl
@[simp] theorem pop_fetchWord : (s.pop).fetchWord = s.fetchWord := rfl

/-! ### fatal -/

@[simp] theorem fatal_v (c : ErrCode) : (s.fatal c).v = s.v := rfl
@[simp] theorem fatal_i (c : ErrCode) : (s.fatal c).i = s.i := rfl
@[simp] theorem fatal_pc (c : ErrCode) : (s.fatal c).pc = s.pc := rfl
@[simp] theorem fatal_stack (c : ErrCode) : (s.fatal c).stack = s.stack := rfl
@[simp] theorem fatal_sp (c : ErrCode) : (s.fatal c).sp = s.sp := rfl
@[simp] theorem fatal_dt (c : ErrCode) : (s.fatal c).dt = s.dt := rfl
@[simp] theorem fatal_st (c : ErrCode) : (s.fatal c).st = s.st := rfl
@[simp] theorem fatal_fb (c : ErrCode) : (s.fatal c).fb = s.fb := rfl
@[simp] theorem fatal_keys (c : ErrCode) : (s.fatal c).keys = s.keys := rfl
@[simp] theorem fatal_mem (c : ErrCode) : (s.fatal c).mem = s.mem := rfl
@[simp] theorem fatal_mode (c : ErrCode) : (s.fatal c).mode = .halted := rfl
@[simp] theorem fatal_waitReg (c : ErrCode) : (s.fatal c).waitReg = s.waitReg := rfl
@[simp] theorem fatal_err (c : ErrCode) : (s.fatal c).err = c := rfl
@[simp] theorem fatal_started (c : ErrCode) : (s.fatal c).started = s.started := rfl
@[simp] theorem fatal_fbChanged (c : ErrCode) : (s.fatal c).fbChanged = s.fbChanged := rfl
@[simp] theorem fatal_report (c : ErrCode) : (s.fatal c).report = s.report := rfl
@[simp] theorem fatal_rndIn (c : ErrCode) : (s.fatal c).rndIn = s.rndIn := rfl
@[simp] theorem fatal_rndDraws (c : ErrCode) : (s.fatal c).rndDraws = s.rndDraws := rfl
@[simp] theorem fatal_fontRom (c : ErrCode) : (s.fatal c).fontRom = s.fontRom := rfl
@[simp] theorem fatal_reg (c : ErrCode) (r : Nibble) : (s.fatal c).reg r = s.reg r := rfl
@[simp] theorem fatal_readByte (c : ErrCode) (a : Nat) : (s.fatal c).readByte a = s.readByte a := rfl
@[simp] theorem fatal_stackEntry (c : ErrCode) (j : Fin 16) : (s.fatal c).stackEntry j = s.stackEntry j := rfl
@[simp] theorem fatal_key (c : ErrCode) (k : Fin 16) : (s.fatal c).key k = s.key k := rfl
@[simp] theorem fatal_fetchWord (c : ErrCode) : (s.fatal c).fetchWord = s.fetchWord := rfl

/-! ### emit -/

@[simp] theorem emit_v (e : Report) : (s.emit e).v = s.v := rfl
@[simp] theorem emit_i (e : Report) : (s.emit e).i = s.i := rfl
@[simp] theorem emit_pc (e : Report) : (s.emit e).pc = s.pc := rfl
@[simp] theorem emit_stack (e : Report) : (s.emit e).stack = s.stack := rfl
@[simp] theorem emit_sp (e : Report) : (s.emit e).sp = s.sp := rfl
@[simp] theorem emit_dt (e : Report) : (s.emit e).dt = s.dt := rfl
@[simp] theorem emit_st (e : Report) : (s.emit e).st = s.st := rfl
@[simp] theorem emit_fb (e : Report) : (s.emit e).fb = s.fb := rfl
@[simp] theorem emit_keys (e : Report) : (s.emit e).keys = s.keys := rfl
@[simp] theorem emit_mem (e : Report) : (s.emit e).mem = s.mem := rfl
@[simp] theorem emit_mode (e : Report) : (s.emit e).mode = s.mode := rfl
@[simp] theorem emit_waitReg (e : Report) : (s.emit e).waitReg = s.waitReg := rfl
@[simp] theorem emit_err (e : Report) : (s.emit e).err = s.err := rfl
@[simp] theorem emit_started (e : Report) : (s.emit e).started = s.started := rfl
@[simp] theorem emit_fbChanged (e : Report) : (s.emit e).fbChanged = s.fbChanged := rfl
@[simp] theorem emit_report (e : Report) : (s.emit e).report = some e := rfl
@[simp] theorem emit_rndIn (e : Report) : (s.emit e).rndIn = s.rndIn := rfl
@[simp] theorem emit_rndDraws (e : Report) : (s.emit e).rndDraws = s.rndDraws := rfl
@[simp] theorem emit_fontRom (e : Report) : (s.emit e).fontRom = s.fontRom := rfl
@[simp] theorem emit_reg (e : Report) (r : Nibble) : (s.emit e).reg r = s.reg r := rfl
@[simp] theorem emit_readByte (e : Report) (a : Nat) : (s.emit e).readByte a = s.readByte a := rfl
@[simp] theorem emit_stackEntry (e : Report) (j : Fin 16) : (s.emit e).stackEntry j = s.stackEntry j := rfl
@[simp] theorem emit_key (e : Report) (k : Fin 16) : (s.emit e).key k = s.key k := rfl
@[simp] theorem emit_fetchWord (e : Report) : (s.emit e).fetchWord = s.fetchWord := rfl

/-! ### setKey -/

@[simp] theorem setKey_v (q : Fin 16) (b : Bool) : (s.setKey q b).v = s.v := rfl
@[simp] theorem setKey_i (q : Fin 16) (b : Bool) : (s.setKey q b).i = s.i := rfl
@[simp] theorem setKey_pc (q : Fin 16) (b : Bool) : (s.setKey q b).pc = s.pc := rfl
@[simp] theorem setKey_stack (q : Fin 16) (b : Bool) : (s.setKey q b).stack = s.stack := rfl
@[simp] theorem setKey_sp (q : Fin 16) (b : Bool) : (s.setKey q b).sp = s.sp := rfl
@[simp] theorem setKey_dt (q : Fin 16) (b : Bool) : (s.setKey q b).dt = s.dt := rfl
@[simp] theorem setKey_st (q : Fin 16) (b : Bool) : (s.setKey q b).st = s.st := rfl
@[simp] theorem setKey_fb (q : Fin 16) (b : Bool) : (s.setKey q b).fb = s.fb := rfl
@[simp] theorem setKey_keys (q : Fin 16) (b : Bool) : (s.setKey q b).keys = s.keys.set q.val b q.isLt := rfl
@[simp] theorem setKey_mem (q : Fin 16) (b : Bool) : (s.setKey q b).mem = s.mem := rfl
@[simp] theorem setKey_mode (q : Fin 16) (b : Bool) : (s.setKey q b).mode = s.mode := rfl
@[simp] theorem setKey_waitReg (q : Fin 16) (b : Bool) : (s.setKey q b).waitReg = s.waitReg := rfl
@[simp] theorem setKey_err (q : Fin 16) (b : Bool) : (s.setKey q b).err = s.err := rfl
@[simp] theorem setKey_started (q : Fin 16) (b : Bool) : (s.setKey q b).started = s.started := rfl
@[simp] theorem setKey_fbChanged (q : Fin 16) (b : Bool) : (s.setKey q b).fbChanged = s.fbChanged := rfl
@[simp] theorem setKey_report (q : Fin 16) (b : Bool) : (s.setKey q b).report = s.report := rfl
@[simp] theorem setKey_rndIn (q : Fin 16) (b : Bool) : (s.setKey q b).rndIn = s.rndIn := rfl
@[simp] theorem setKey_rndDraws (q : Fin 16) (b : Bool) : (s.setKey q b).rndDraws = s.rndDraws := rfl
@[simp] theorem setKey_fontRom (q : Fin 16) (b : Bool) : (s.setKey q b).fontRom = s.fontRom := rfl
@[simp] theorem setKey_reg (q : Fin 16) (b : Bool) (r : Nibble) : (s.setKey q b).reg r = s.reg r := rfl
@[simp] theorem setKey_readByte (q : Fin 16) (b : Bool) (a : Nat) : (s.setKey q b).readByte a = s.readByte a := rfl
@[simp] theorem setKey_stackEntry (q : Fin 16) (b : Bool) (j : Fin 16) : (s.setKey q b).stackEntry j = s.stackEntry j := rfl
@[simp] theorem setKey_fetchWord (q : Fin 16) (b : Bool) : (s.setKey q b).fetchWord = s.fetchWord := rfl

/-! ### enterKeyWait -/

@[simp] theorem enterKeyWait_v (x : Nibble) : (s.enterKeyWait x).v = s.v := rfl
@[simp] theorem enterKeyWait_i (x : Nibble) : (s.enterKeyWait x).i = s.i := rfl
@[simp] theorem enterKeyWait_pc (x : Nibble) : (s.enterKeyWait x).pc = s.pc := rfl
@[simp] theorem enterKeyWait_stack (x : Nibble) : (s.enterKeyWait x).stack = s.stack := rfl
@[simp] theorem enterKeyWait_sp (x : Nibble) : (s.enterKeyWait x).sp = s.sp := rfl
@[simp] theorem enterKeyWait_dt (x : Nibble) : (s.enterKeyWait x).dt = s.dt := rfl
@[simp] theorem enterKeyWait_st (x : Nibble) : (s.enterKeyWait x).st = s.st := rfl
@[simp] theorem enterKeyWait_fb (x : Nibble) : (s.enterKeyWait x).fb = s.fb := rfl
@[simp] theorem enterKeyWait_keys (x : Nibble) : (s.enterKeyWait x).keys = s.keys := rfl
@[simp] theorem enterKeyWait_mem (x : Nibble) : (s.enterKeyWait x).mem = s.mem := rfl
@[simp] theorem enterKeyWait_mode (x : Nibble) : (s.enterKeyWait x).mode = .keyWait := rfl
@[simp] theorem enterKeyWait_waitReg (x : Nibble) : (s.enterKeyWait x).waitReg = x := rfl
@[simp] theorem enterKeyWait_err (x : Nibble) : (s.enterKeyWait x).err = s.err := rfl
@[simp] theorem enterKeyWait_started (x : Nibble) : (s.enterKeyWait x).started = s.started := rfl
@[simp] theorem enterKeyWait_fbChanged (x : Nibble) : (s.enterKeyWait x).fbChanged = s.fbChanged := rfl
@[simp] theorem enterKeyWait_report (x : Nibble) : (s.enterKeyWait x).report = s.report := rfl
@[simp] theorem enterKeyWait_rndIn (x : Nibble) : (s.enterKeyWait x).rndIn = s.rndIn := rfl
@[simp] theorem enterKeyWait_rndDraws (x : Nibble) : (s.enterKeyWait x).rndDraws = s.rndDraws := rfl
@[simp] theorem enterKeyWait_fontRom (x : Nibble) : (s.enterKeyWait x).fontRom = s.fontRom := rfl
@[simp] theorem enterKeyWait_reg (x : Nibble) (r : Nibble) : (s.enterKeyWait x).reg r = s.reg r := rfl
@[simp] theorem enterKeyWait_readByte (x : Nibble) (a : Nat) : (s.enterKeyWait x).readByte a = s.readByte a := rfl
@[simp] theorem enterKeyWait_stackEntry (x : Nibble) (j : Fin 16) : (s.enterKeyWait x).stackEntry j = s.stackEntry j := rfl
@[simp] theorem enterKeyWait_key (x : Nibble) (k : Fin 16) : (s.enterKeyWait x).key k = s.key k := rfl
@[simp] theorem enterKeyWait_fetchWord (x : Nibble) : (s.enterKeyWait x).fetchWord = s.fetchWord := rfl

/-! ### resume -/

@[simp] theorem resume_v : (s.resume).v = s.v := rfl
@[simp] theorem resume_i : (s.resume).i = s.i := rfl
@[simp] theorem resume_pc : (s.resume).pc = s.pc := rfl
@[simp] theorem resume_stack : (s.resume).stack = s.stack := rfl
@[simp] theorem resume_sp : (s.resume).sp = s.sp := rfl
@[simp] theorem resume_dt : (s.resume).dt = s.dt := rfl
@[simp] theorem resume_st : (s.resume).st = s.st := rfl
@[simp] theorem resume_fb : (s.resume).fb = s.fb := rfl
@[simp] theorem resume_keys : (s.resume).keys = s.keys := rfl
@[simp] theorem resume_mem : (s.resume).mem = s.mem := rfl
@[simp] theorem resume_mode : (s.resume).mode = .running := rfl
@[simp] theorem resume_waitReg : (s.resume).waitReg = s.waitReg := rfl
@[simp] theorem resume_err : (s.resume).err = s.err := rfl
@[simp] theorem resume_started : (s.resume).started = s.started := rfl
@[simp] theorem resume_fbChanged : (s.resume).fbChanged = s.fbChanged := rfl
@[simp] theorem resume_report : (s.resume).report = s.report := rfl
@[simp] theorem resume_rndIn : (s.resume).rndIn = s.rndIn := rfl
@[simp] theorem resume_rndDraws : (s.resume).rndDraws = s.rndDraws := rfl
@[simp] theorem resume_fontRom : (s.resume).fontRom = s.fontRom := rfl
@[simp] theorem resume_reg (r : Nibble) : (s.resume).reg r = s.reg r := rfl
@[simp] theorem resume_readByte (a : Nat) : (s.resume).readByte a = s.readByte a := rfl
@[simp] theorem resume_stackEntry (j : Fin 16) : (s.resume).stackEntry j = s.stackEntry j := rfl
@[simp] theorem resume_key (k : Fin 16) : (s.resume).key k = s.key k := rfl
@[simp] theorem resume_fetchWord : (s.resume).fetchWord = s.fetchWord := rfl

/-! ### setDelay -/

@[simp] theorem setDelay_v (b : Byte) : (s.setDelay b).v = s.v := rfl
@[simp] theorem setDelay_i (b : Byte) : (s.setDelay b).i = s.i := rfl
@[simp] theorem setDelay_pc (b : Byte) : (s.setDelay b).pc = s.pc := rfl
@[simp] theorem setDelay_stack (b : Byte) : (s.setDelay b).stack = s.stack := rfl
@[simp] theorem setDelay_sp (b : Byte) : (s.setDelay b).sp = s.sp := rfl
@[simp] theorem setDelay_dt (b : Byte) : (s.setDelay b).dt = b := rfl
@[simp] theorem setDelay_st (b : Byte) : (s.setDelay b).st = s.st := rfl
@[simp] theorem setDelay_fb (b : Byte) : (s.setDelay b).fb = s.fb := rfl
@[simp] theorem setDelay_keys (b : Byte) : (s.setDelay b).keys = s.keys := rfl
@[simp] theorem setDelay_mem (b : Byte) : (s.setDelay b).mem = s.mem := rfl
@[simp] theorem setDelay_mode (b : Byte) : (s.setDelay b).mode = s.mode := rfl
@[simp] theorem setDelay_waitReg (b : Byte) : (s.setDelay b).waitReg = s.waitReg := rfl
@[simp] theorem setDelay_err (b : Byte) : (s.setDelay b).err = s.err := rfl
@[simp] theorem setDelay_started (b : Byte) : (s.setDelay b).started = s.started := rfl
@[simp] theorem setDelay_fbChanged (b : Byte) : (s.setDelay b).fbChanged = s.fbChanged := rfl
@[simp] theorem setDelay_report (b : Byte) : (s.setDelay b).report = s.report := rfl
@[simp] theorem setDelay_rndIn (b : Byte) : (s.setDelay b).rndIn = s.rndIn := rfl
@[simp] theorem setDelay_rndDraws (b : Byte) : (s.setDelay b).rndDraws = s.rndDraws := rfl
@[simp] theorem setDelay_fontRom (b : Byte) : (s.setDelay b).fontRom = s.fontRom := rfl
@[simp] theorem setDelay_reg (b : Byte) (r : Nibble) : (s.setDelay b).reg r = s.reg r := rfl
@[simp] theorem setDelay_readByte (b : Byte) (a : Nat) : (s.setDelay b).readByte a = s.readByte a := rfl
@[simp] theorem setDelay_stackEntry (b : Byte) (j : Fin 16) : (s.setDelay b).stackEntry j = s.stackEntry j := rfl
@[simp] theorem setDelay_key (b : Byte) (k : Fin 16) : (s.setDelay b).key k = s.key k := rfl
@[simp] theorem setDelay_fetchWord (b : Byte) : (s.setDelay b).fetchWord = s.fetchWord := rfl

/-! ### setSound -/

@[simp] theorem setSound_v (b : Byte) : (s.setSound b).v = s.v := rfl
@[simp] theorem setSound_i (b : Byte) : (s.setSound b).i = s.i := rfl
@[simp] theorem setSound_pc (b : Byte) : (s.setSound b).pc = s.pc := rfl
@[simp] theorem setSound_stack (b : Byte) : (s.setSound b).stack = s.stack := rfl
@[simp] theorem setSound_sp (b : Byte) : (s.setSound b).sp = s.sp := rfl
@[simp] theorem setSound_dt (b : Byte) : (s.setSound b).dt = s.dt := rfl
@[simp] theorem setSound_st (b : Byte) : (s.setSound b).st = b := rfl
@[simp] theorem setSound_fb (b : Byte) : (s.setSound b).fb = s.fb := rfl
@[simp] theorem setSound_keys (b : Byte) : (s.setSound b).keys = s.keys := rfl
@[simp] theorem setSound_mem (b : Byte) : (s.setSound b).mem = s.mem := rfl
@[simp] theorem setSound_mode (b : Byte) : (s.setSound b).mode = s.mode := rfl
@[simp] theorem setSound_waitReg (b : Byte) : (s.setSound b).waitReg = s.waitReg := rfl
@[simp] theorem setSound_err (b : Byte) : (s.setSound b).err = s.err := rfl
@[simp] theorem setSound_started (b : Byte) : (s.setSound b).started = s.started := rfl
@[simp] theorem setSound_fbChanged (b : Byte) : (s.setSound b).fbChanged = s.fbChanged := rfl
@[simp] theorem setSound_report (b : Byte) : (s.setSound b).report = s.report := rfl
@[simp] theorem setSound_rndIn (b : Byte) : (s.setSound b).rndIn = s.rndIn := rfl
@[simp] theorem setSound_rndDraws (b : Byte) : (s.setSound b).rndDraws = s.rndDraws := rfl
@[simp] theorem setSound_fontRom (b : Byte) : (s.setSound b).fontRom = s.fontRom := rfl
@[simp] theorem setSound_reg (b : Byte) (r : Nibble) : (s.setSound b).reg r = s.reg r := rfl
@[simp] theorem setSound_readByte (b : Byte) (a : Nat) : (s.setSound b).readByte a = s.readByte a := rfl
@[simp] theorem setSound_stackEntry (b : Byte) (j : Fin 16) : (s.setSound b).stackEntry j = s.stackEntry j := rfl
@[simp] theorem setSound_key (b : Byte) (k : Fin 16) : (s.setSound b).key k = s.key k := rfl
@[simp] theorem setSound_fetchWord (b : Byte) : (s.setSound b).fetchWord = s.fetchWord := rfl

/-! ### timerPhase -/

@[simp] theorem timerPhase_v : (s.timerPhase).v = s.v := rfl
@[simp] theorem timerPhase_i : (s.timerPhase).i = s.i := rfl
@[simp] theorem timerPhase_pc : (s.timerPhase).pc = s.pc := rfl
@[simp] theorem timerPhase_stack : (s.timerPhase).stack = s.stack := rfl
@[simp] theorem timerPhase_sp : (s.timerPhase).sp = s.sp := rfl
@[simp] theorem timerPhase_dt : (s.timerPhase).dt = countDown s.dt := rfl
@[simp] theorem timerPhase_st : (s.timerPhase).st = countDown s.st := rfl
@[simp] theorem timerPhase_fb : (s.timerPhase).fb = s.fb := rfl
@[simp] theorem timerPhase_keys : (s.timerPhase).keys = s.keys := rfl
@[simp] theorem timerPhase_mem : (s.timerPhase).mem = s.mem := rfl
@[simp] theorem timerPhase_mode : (s.timerPhase).mode = s.mode := rfl
@[simp] theorem timerPhase_waitReg : (s.timerPhase).waitReg = s.waitReg := rfl
@[simp] theorem timerPhase_err : (s.timerPhase).err = s.err := rfl
@[simp] theorem timerPhase_started : (s.timerPhase).started = s.started := rfl
@[simp] theorem timerPhase_fbChanged : (s.timerPhase).fbChanged = s.fbChanged := rfl
@[simp] theorem timerPhase_report : (s.timerPhase).report = s.report := rfl
@[simp] theorem timerPhase_rndIn : (s.timerPhase).rndIn = s.rndIn := rfl
@[simp] theorem timerPhase_rndDraws : (s.timerPhase).rndDraws = s.rndDraws := rfl
@[simp] theorem timerPhase_fontRom : (s.timerPhase).fontRom = s.fontRom := rfl
@[simp] theorem timerPhase_reg (r : Nibble) : (s.timerPhase).reg r = s.reg r := rfl
@[simp] theorem timerPhase_readByte (a : Nat) : (s.timerPhase).readByte a = s.readByte a := rfl
@[simp] theorem timerPhase_stackEntry (j : Fin 16) : (s.timerPhase).stackEntry j = s.stackEntry j := rfl
@[simp] theorem timerPhase_key (k : Fin 16) : (s.timerPhase).key k = s.key k := rfl
@[simp] theorem timerPhase_fetchWord : (s.timerPhase).fetchWord = s.fetchWord := rfl

/-! ### drawn -/

@[simp] theorem drawn_v : (s.drawn).v = s.v := rfl
@[simp] theorem drawn_i : (s.drawn).i = s.i := rfl
@[simp] theorem drawn_pc : (s.drawn).pc = s.pc := rfl
@[simp] theorem drawn_stack : (s.drawn).stack = s.stack := rfl
@[simp] theorem drawn_sp : (s.drawn).sp = s.sp := rfl
@[simp] theorem drawn_dt : (s.drawn).dt = s.dt := rfl
@[simp] theorem drawn_st : (s.drawn).st = s.st := rfl
@[simp] theorem drawn_fb : (s.drawn).fb = s.fb := rfl
@[simp] theorem drawn_keys : (s.drawn).keys = s.keys := rfl
@[simp] theorem drawn_mem : (s.drawn).mem = s.mem := rfl
@[simp] theorem drawn_mode : (s.drawn).mode = s.mode := rfl
@[simp] theorem drawn_waitReg : (s.drawn).waitReg = s.waitReg := rfl
@[simp] theorem drawn_err : (s.drawn).err = s.err := rfl
@[simp] theorem drawn_started : (s.drawn).started = s.started := rfl
@[simp] theorem drawn_fbChanged : (s.drawn).fbChanged = s.fbChanged := rfl
@[simp] theorem drawn_report : (s.drawn).report = s.report := rfl
@[simp] theorem drawn_rndIn : (s.drawn).rndIn = s.rndIn.tail := rfl
@[simp] theorem drawn_rndDraws : (s.drawn).rndDraws = s.rndDraws + 1 := rfl
@[simp] theorem drawn_fontRom : (s.drawn).fontRom = s.fontRom := rfl
@[simp] theorem drawn_reg (r : Nibble) : (s.drawn).reg r = s.reg r := rfl
@[simp] theorem drawn_readByte (a : Nat) : (s.drawn).readByte a = s.readByte a := rfl
@[simp] theorem drawn_stackEntry (j : Fin 16) : (s.drawn).stackEntry j = s.stackEntry j := rfl
@[simp] theorem drawn_key (k : Fin 16) : (s.drawn).key k = s.key k := rfl
@[simp] theorem drawn_fetchWord : (s.drawn).fetchWord = s.fetchWord := rfl

/-! ### setDisplay -/

@[simp] theorem setDisplay_v (fb : Display) : (s.setDisplay fb).v = s.v := rfl
@[simp] theorem setDisplay_i (fb : Display) : (s.setDisplay fb).i = s.i := rfl
@[simp] theorem setDisplay_pc (fb : Display) : (s.setDisplay fb).pc = s.pc := rfl
@[simp] theorem setDisplay_stack (fb : Display) : (s.setDisplay fb).stack = s.stack := rfl
@[simp] theorem setDisplay_sp (fb : Display) : (s.setDisplay fb).sp = s.sp := rfl
@[simp] theorem setDisplay_dt (fb : Display) : (s.setDisplay fb).dt = s.dt := rfl
@[simp] theorem setDisplay_st (fb : Display) : (s.setDisplay fb).st = s.st := rfl
@[simp] theorem setDisplay_fb (fb : Display) : (s.setDisplay fb).fb = fb := rfl
@[simp] theorem setDisplay_keys (fb : Display) : (s.setDisplay fb).keys = s.keys := rfl
@[simp] theorem setDisplay_mem (fb : Display) : (s.setDisplay fb).mem = s.mem := rfl
@[simp] theorem setDisplay_mode (fb : Display) : (s.setDisplay fb).mode = s.mode := rfl
@[simp] theorem setDisplay_waitReg (fb : Display) : (s.setDisplay fb).waitReg = s.waitReg := rfl
@[simp] theorem setDisplay_err (fb : Display) : (s.setDisplay fb).err = s.err := rfl
@[simp] theorem setDisplay_started (fb : Display) : (s.setDisplay fb).started = s.started := rfl
@[simp] theorem setDisplay_fbChanged (fb : Display) : (s.setDisplay fb).fbChanged = true := rfl
@[simp] theorem setDisplay_report (fb : Display) : (s.setDisplay fb).report = s.report := rfl
@[simp] theorem setDisplay_rndIn (fb : Display) : (s.setDisplay fb).rndIn = s.rndIn := rfl
@[simp] theorem setDisplay_rndDraws (fb : Display) : (s.setDisplay fb).rndDraws = s.rndDraws := rfl
@[simp] theorem setDisplay_fontRom (fb : Display) : (s.setDisplay fb).fontRom = s.fontRom := rfl
@[simp] theorem setDisplay_reg (fb : Display) (r : Nibble) : (s.setDisplay fb).reg r = s.reg r := rfl
@[simp] theorem setDisplay_readByte (fb : Display) (a : Nat) : (s.setDisplay fb).readByte a = s.readByte a := rfl
@[simp] theorem setDisplay_stackEntry (fb : Display) (j : Fin 16) : (s.setDisplay fb).stackEntry j = s.stackEntry j := rfl
@[simp] theorem setDisplay_key (fb : Display) (k : Fin 16) : (s.setDisplay fb).key k = s.key k := rfl
@[simp] theorem setDisplay_fetchWord (fb : Display) : (s.setDisplay fb).fetchWord = s.fetchWord := rfl

/-! ### openTick -/

@[simp] theorem openTick_v : (s.openTick).v = s.v := rfl
@[simp] theorem openTick_i : (s.openTick).i = s.i := rfl
@[simp] theorem openTick_pc : (s.openTick).pc = s.pc := rfl
@[simp] theorem openTick_stack : (s.openTick).stack = s.stack := rfl
@[simp] theorem openTick_sp : (s.openTick).sp = s.sp := rfl
@[simp] theorem openTick_dt : (s.openTick).dt = s.dt := rfl
@[simp] theorem openTick_st : (s.openTick).st = s.st := rfl
@[simp] theorem openTick_fb : (s.openTick).fb = s.fb := rfl
@[simp] theorem openTick_keys : (s.openTick).keys = s.keys := rfl
@[simp] theorem openTick_mem : (s.openTick).mem = s.mem := rfl
@[simp] theorem openTick_mode : (s.openTick).mode = s.mode := rfl
@[simp] theorem openTick_waitReg : (s.openTick).waitReg = s.waitReg := rfl
@[simp] theorem openTick_err : (s.openTick).err = s.err := rfl
@[simp] theorem openTick_started : (s.openTick).started = true := rfl
@[simp] theorem openTick_fbChanged : (s.openTick).fbChanged = false := rfl
@[simp] theorem openTick_report : (s.openTick).report = none := rfl
@[simp] theorem openTick_rndIn : (s.openTick).rndIn = s.rndIn := rfl
@[simp] theorem openTick_rndDraws : (s.openTick).rndDraws = s.rndDraws := rfl
@[simp] theorem openTick_fontRom : (s.openTick).fontRom = s.fontRom := rfl
@[simp] theorem openTick_reg (r : Nibble) : (s.openTick).reg r = s.reg r := rfl
@[simp] theorem openTick_readByte (a : Nat) : (s.openTick).readByte a = s.readByte a := rfl
@[simp] theorem openTick_stackEntry (j : Fin 16) : (s.openTick).stackEntry j = s.stackEntry j := rfl
@[simp] theorem openTick_key (k : Fin 16) : (s.openTick).key k = s.key k := rfl
@[simp] theorem openTick_fetchWord : (s.openTick).fetchWord = s.fetchWord := rfl

/-! ### setRegsFrom -/

/-- A block of register writes changes nothing but registers. -/
theorem setRegsFrom_frame (bs : List Byte) (s : State) (k : Nat) : ∃ v, s.setRegsFrom k bs = { s with v := v } := by
  induction bs generalizing s k with
  | nil => exact ⟨s.v, rfl⟩
  | cons b bs ih =>
    obtain ⟨v, h⟩ := ih (s.setReg (BitVec.ofNat 4 k) b) (k + 1)
    exact ⟨v, h⟩

@[simp] theorem setRegsFrom_i (k : Nat) (bs : List Byte) : (s.setRegsFrom k bs).i = s.i := by
  obtain ⟨v, h⟩ := setRegsFrom_frame bs s k; rw [h]
@[simp] theorem setRegsFrom_pc (k : Nat) (bs : List Byte) : (s.setRegsFrom k bs).pc = s.pc := by
  obtain ⟨v, h⟩ := setRegsFrom_frame bs s k; rw [h]
@[simp] theorem setRegsFrom_stack (k : Nat) (bs : List Byte) : (s.setRegsFrom k bs).stack = s.stack := by
  obtain ⟨v, h⟩ := setRegsFrom_frame bs s k; rw [h]
@[simp] theorem setRegsFrom_sp (k : Nat) (bs : List Byte) : (s.setRegsFrom k bs).sp = s.sp := by
  obtain ⟨v, h⟩ := setRegsFrom_frame bs s k; rw [h]
@[simp] theorem setRegsFrom_dt (k : Nat) (bs : List Byte) : (s.setRegsFrom k bs).dt = s.dt := by
  obtain ⟨v, h⟩ := setRegsFrom_frame bs s k; rw [h]
@[simp] theorem setRegsFrom_st (k : Nat) (bs : List Byte) : (s.setRegsFrom k bs).st = s.st := by
  obtain ⟨v, h⟩ := setRegsFrom_frame bs s k; rw [h]
@[simp] theorem setRegsFrom_fb (k : Nat) (bs : List Byte) : (s.setRegsFrom k bs).fb = s.fb := by
  obtain ⟨v, h⟩ := setRegsFrom_frame bs s k; rw [h]
@[simp] theorem setRegsFrom_keys (k : Nat) (bs : List Byte) : (s.setRegsFrom k bs).keys = s.keys := by
  obtain ⟨v, h⟩ := setRegsFrom_frame bs s k; rw [h]
@[simp] theorem setRegsFrom_mem (k : Nat) (bs : List Byte) : (s.setRegsFrom k bs).mem = s.mem := by
  obtain ⟨v, h⟩ := setRegsFrom_frame bs s k; rw [h]
@[simp] theorem setRegsFrom_mode (k : Nat) (bs : List Byte) : (s.setRegsFrom k bs).mode = s.mode := by
  obtain ⟨v, h⟩ := setRegsFrom_frame bs s k; rw [h]
@[simp] theorem setRegsFrom_waitReg (k : Nat) (bs : List Byte) : (s.setRegsFrom k bs).waitReg = s.waitReg := by
  obtain ⟨v, h⟩ := setRegsFrom_frame bs s k; rw [h]
@[simp] theorem setRegsFrom_err (k : Nat) (bs : List Byte) : (s.setRegsFrom k bs).err = s.err := by
  obtain ⟨v, h⟩ := setRegsFrom_frame bs s k; rw [h]
@[simp] theorem setRegsFrom_started (k : Nat) (bs : List Byte) : (s.setRegsFrom k bs).started = s.started := by
  obtain ⟨v, h⟩ := setRegsFrom_frame bs s k; rw [h]
@[simp] theorem setRegsFrom_fbChanged (k : Nat) (bs : List Byte) : (s.setRegsFrom k bs).fbChanged = s.fbChanged := by
  obtain ⟨v, h⟩ := setRegsFrom_frame bs s k; rw [h]
@[simp] theorem setRegsFrom_report (k : Nat) (bs : List Byte) : (s.setRegsFrom k bs).report = s.report := by
  obtain ⟨v, h⟩ := setRegsFrom_frame bs s k; rw [h]
@[simp] theorem setRegsFrom_rndIn (k : Nat) (bs : List Byte) : (s.setRegsFrom k bs).rndIn = s.rndIn := by
  obtain ⟨v, h⟩ := setRegsFrom_frame bs s k; rw [h]
@[simp] theorem setRegsFrom_rndDraws (k : Nat) (bs : List Byte) : (s.setRegsFrom k bs).rndDraws = s.rndDraws := by
  obtain ⟨v, h⟩ := setRegsFrom_frame bs s k; rw [h]
@[simp] theorem setRegsFrom_fontRom (k : Nat) (bs : List Byte) : (s.setRegsFrom k bs).fontRom = s.fontRom := by
  obtain ⟨v, h⟩ := setRegsFrom_frame bs s k; rw [h]
@[simp] theorem setRegsFrom_readByte (k : Nat) (bs : List Byte) (a : Nat) :
    (s.setRegsFrom k bs).readByte a = s.readByte a := by
  obtain ⟨v, h⟩ := setRegsFrom_frame bs s k; rw [h]; rfl
@[simp] theorem setRegsFrom_stackEntry (k : Nat) (bs : List Byte) (j : Fin 16) :
    (s.setRegsFrom k bs).stackEntry j = s.stackEntry j := by
  obtain ⟨v, h⟩ := setRegsFrom_frame bs s k; rw [h]; rfl
@[simp] theorem setRegsFrom_key (k : Nat) (bs : List Byte) (q : Fin 16) :
    (s.setRegsFrom k bs).key q = s.key q := by
  obtain ⟨v, h⟩ := setRegsFrom_frame bs s k; rw [h]; rfl

end Sys2Proof.Machine.State
end

