-- ==== Sys2Proof/Laws/Display.lean ====
section
/-! SUPPORT. Cells of the display under the operations of the blit unit. -/

namespace Sys2Proof.Machine

/-- Two displays with the same cells are the same. -/
theorem Display.ext_cell {a b : Display} (h : ∀ x y, Display.cell a x y = Display.cell b x y) : a = b := by
  apply Vector.ext
  intro y hy
  apply BitVec.eq_of_getLsbD_eq
  intro x hx
  exact h ⟨x, hx⟩ ⟨y, hy⟩

@[simp] theorem Display.cell_blank (x : Fin 64) (y : Fin 32) : Display.cell Display.blank x y = false := by
  simp [Display.cell, Display.blank]

/-- Toggling a cell flips it and no other. -/
@[simp] theorem Display.cell_toggle (fb : Display) (x cx : Fin 64) (y cy : Fin 32) :
    Display.cell (Display.toggle fb x y) cx cy = (Display.cell fb cx cy ^^ decide (cx = x ∧ cy = y)) := by
  simp only [Display.cell, Display.toggle, Vector.getElem_set]
  by_cases hy : cy = y
  · subst hy
    rw [if_pos rfl, BitVec.getLsbD_xor, BitVec.getLsbD_twoPow]
    have hx : (cx = x) = (x.val = cx.val) := by rw [Fin.ext_iff]; exact propext eq_comm
    simp [hx]
  · rw [if_neg fun h => hy (Fin.ext h.symm)]
    simp [hy]

/-- One sprite bit: XOR into its cell. -/
@[simp] theorem Canvas.cell_plot (c : Canvas) (x cx : Fin 64) (y cy : Fin 32) (b : Bool) :
    Display.cell (c.plot x y b).fb cx cy = (Display.cell c.fb cx cy ^^ (b && decide (cx = x ∧ cy = y))) := by
  cases b <;> simp [Canvas.plot]

/-- One sprite bit: it collides where it falls on a set cell. -/
@[simp] theorem Canvas.col_plot (c : Canvas) (x : Fin 64) (y : Fin 32) (b : Bool) :
    (c.plot x y b).col = (c.col || (b && Display.cell c.fb x y)) := by
  cases b <;> simp [Canvas.plot]

end Sys2Proof.Machine
end

