-- ==== Sys2Proof/Laws/Memory.lean ====
section
/-! SUPPORT. What the memory operations do: they keep the canonical form, a byte that is written reads back, and every other byte
reads as before. -/

namespace Sys2Proof.Machine

theorem wrapAddr_lt (a : Nat) : wrapAddr a < 4096 := Nat.mod_lt _ (by decide)

@[simp] theorem wrapAddr_wrapAddr (a : Nat) : wrapAddr (wrapAddr a) = wrapAddr a := Nat.mod_mod a 4096

theorem wrapAddr_of_lt {a : Nat} (h : a < 4096) : wrapAddr a = a := Nat.mod_eq_of_lt h

/-- The offset of an address in a block only matters modulo 4096. -/
theorem wrapAddr_add (a k : Nat) : wrapAddr (wrapAddr a + k) = wrapAddr (a + k) := by simp [wrapAddr]

namespace Memory

variable {rom : FontRom}

@[simp] theorem read_wrapAddr (m : Memory) (a : Nat) : read rom m (wrapAddr a) = read rom m a := by simp [read]

theorem read_congr (m : Memory) {a b : Nat} (h : wrapAddr a = wrapAddr b) : read rom m a = read rom m b := by simp [read, h]

theorem write_congr (m : Memory) {a b : Nat} (h : wrapAddr a = wrapAddr b) (v : Byte) : write rom m a v = write rom m b v := by
  simp [write, h]

/-- Nothing is listed, so memory reads as it does after reset. -/
@[simp] theorem read_nil (a : Nat) : read rom [] a = resetByte rom (wrapAddr a) := rfl

/-! ### The canonical form -/

theorem wf_nil : wf rom [] := ⟨List.Pairwise.nil, by simp⟩

theorem wf_cons {c : Host.Cell} {m : Memory} :
    wf rom (c :: m) ↔ (∀ d ∈ m, c.1 < d.1) ∧ c.1 < 4096 ∧ c.2 ≠ resetByte rom c.1 ∧ wf rom m := by
  simp only [wf, List.pairwise_cons, List.mem_cons, forall_eq_or_imp]
  tauto

theorem cell_wf {m : Memory} {a : Nat} {v : Byte} (hm : wf rom m) (ha : a < 4096) (h : ∀ d ∈ m, a < d.1) : wf rom (cell rom m a v) := by
  unfold cell
  split
  · exact hm
  · exact wf_cons.2 ⟨h, ha, ‹_›, hm⟩

/-- Where the entries of an updated memory come from: the address written, or an entry that was there. -/
theorem mem_put {m : Memory} {a : Nat} {v : Byte} {d : Host.Cell} (h : d ∈ put rom m a v) : d.1 = a ∨ d ∈ m := by
  have hcell : ∀ m : Memory, d ∈ cell rom m a v → d.1 = a ∨ d ∈ m := by
    intro m h
    unfold cell at h
    split at h
    · exact .inr h
    · rcases List.mem_cons.1 h with rfl | h
      · exact .inl rfl
      · exact .inr h
  induction m with
  | nil => exact hcell _ h
  | cons c m ih =>
    obtain ⟨b, w⟩ := c
    simp only [put] at h
    split at h
    · exact hcell _ h
    · split at h
      · exact (hcell _ h).imp id (List.mem_cons_of_mem _)
      · rcases List.mem_cons.1 h with rfl | h
        · exact .inr List.mem_cons_self
        · exact (ih h).imp id (List.mem_cons_of_mem _)

/-- Setting an address keeps the canonical form. -/
theorem put_wf {m : Memory} (hm : wf rom m) {a : Nat} (ha : a < 4096) (v : Byte) : wf rom (put rom m a v) := by
  induction m with
  | nil => exact cell_wf wf_nil ha (by simp)
  | cons c m ih =>
    obtain ⟨b, w⟩ := c
    obtain ⟨hlt, hb, hw, hm'⟩ := wf_cons.1 hm
    simp only [put]
    split
    · refine cell_wf hm ha fun d hd => ?_
      rcases List.mem_cons.1 hd with rfl | hd
      · assumption
      · exact Nat.lt_trans ‹a < b› (hlt d hd)
    · split
      · subst a
        exact cell_wf hm' ha hlt
      · refine wf_cons.2 ⟨fun d hd => ?_, hb, hw, ih hm'⟩
        rcases mem_put hd with h | h
        · simp only [h]; omega
        · exact hlt d h

/-- A write keeps the canonical form. -/
theorem write_wf {m : Memory} (hm : wf rom m) (a : Nat) (v : Byte) : wf rom (write rom m a v) := put_wf hm (wrapAddr_lt a) v

/-- A block of writes keeps the canonical form. -/
theorem writeBytes_wf {m : Memory} (hm : wf rom m) (a : Nat) (bs : List Byte) : wf rom (writeBytes rom m a bs) := by
  induction bs generalizing m a with
  | nil => exact hm
  | cons b bs ih => exact ih (write_wf hm a b) (a + 1)

/-! ### Read after write -/

theorem lookup_eq_none {m : Memory} {a : Nat} (h : ∀ d ∈ m, a < d.1) : lookup m a = none := by
  induction m with
  | nil => rfl
  | cons c m ih =>
    obtain ⟨b, w⟩ := c
    have hb : a < b := h (b, w) List.mem_cons_self
    simp only [lookup]
    rw [if_neg (by omega), ih fun d hd => h d (List.mem_cons_of_mem _ hd)]

theorem lookup_cell {m : Memory} {a : Nat} (h : ∀ d ∈ m, a < d.1) (v : Byte) (b : Nat) :
    (lookup (cell rom m a v) b).getD (resetByte rom b) = if b = a then v else (lookup m b).getD (resetByte rom b) := by
  unfold cell
  split
  · subst v
    split
    · subst b; simp [lookup_eq_none h]
    · rfl
  · simp only [lookup]
    by_cases hb : a = b
    · simp [hb]
    · simp [hb, Ne.symm hb]

theorem lookup_put {m : Memory} (hm : wf rom m) (a : Nat) (v : Byte) (b : Nat) :
    (lookup (put rom m a v) b).getD (resetByte rom b) = if b = a then v else (lookup m b).getD (resetByte rom b) := by
  induction m with
  | nil => exact lookup_cell (by simp) v b
  | cons c m ih =>
    obtain ⟨q, w⟩ := c
    obtain ⟨hlt, hq, hw, hm'⟩ := wf_cons.1 hm
    simp only [put]
    split
    · refine lookup_cell (fun d hd => ?_) v b
      rcases List.mem_cons.1 hd with rfl | hd
      · assumption
      · exact Nat.lt_trans ‹a < q› (hlt d hd)
    · split
      · subst a
        rw [lookup_cell hlt]
        by_cases hb : b = q
        · simp [hb]
        · simp [hb, lookup, Ne.symm hb]
      · simp only [lookup]
        by_cases hb : q = b
        · subst b; simp [Ne.symm ‹¬a = q›]
        · simp [hb, ih hm']

/-- One byte written: it reads back and every other byte reads as before. -/
theorem read_write {m : Memory} (hm : wf rom m) (a : Nat) (v : Byte) (b : Nat) :
    read rom (write rom m a v) b = if wrapAddr b = wrapAddr a then v else read rom m b := lookup_put hm _ _ _

/-- A block written does not touch the bytes outside it. -/
theorem read_writeBytes_of_ne {m : Memory} (hm : wf rom m) (a : Nat) (bs : List Byte) (b : Nat)
    (h : ∀ k < bs.length, wrapAddr b ≠ wrapAddr (a + k)) : read rom (writeBytes rom m a bs) b = read rom m b := by
  induction bs generalizing m a with
  | nil => rfl
  | cons x bs ih =>
    rw [writeBytes, ih (write_wf hm a x) (a + 1) fun k hk => ?_, read_write hm, if_neg]
    · exact h 0 (by simp)
    · have := h (k + 1) (by simpa using hk)
      rwa [← Nat.add_assoc, Nat.add_right_comm] at this

/-- A block no longer than memory reads back byte by byte. -/
theorem read_writeBytes_get {m : Memory} (hm : wf rom m) (a : Nat) (bs : List Byte) (hlen : bs.length ≤ 4096) (k : Nat)
    (hk : k < bs.length) : read rom (writeBytes rom m a bs) (a + k) = bs[k] := by
  induction bs generalizing m a k with
  | nil => simp at hk
  | cons x bs ih =>
    simp only [List.length_cons] at hlen hk
    cases k with
    | zero =>
      rw [writeBytes, read_writeBytes_of_ne (write_wf hm a x), read_write hm]
      · simp
      · intro j hj
        simp only [wrapAddr]
        omega
    | succ k =>
      have := ih (write_wf hm a x) (a + 1) (by omega) k (by omega)
      rw [writeBytes, List.getElem_cons_succ, ← this]
      congr 1
      omega

@[simp] theorem length_readBytes (m : Memory) (a n : Nat) : (readBytes rom m a n).length = n := by simp [readBytes]

@[simp] theorem getElem_readBytes (m : Memory) (a n k : Nat) (h : k < (readBytes rom m a n).length) :
    (readBytes rom m a n)[k] = read rom m (a + k) := by simp [readBytes]

/-- A block of writes starts at an address modulo 4096. -/
theorem writeBytes_congr (m : Memory) {a b : Nat} (h : wrapAddr a = wrapAddr b) (bs : List Byte) :
    writeBytes rom m a bs = writeBytes rom m b bs := by
  induction bs generalizing m a b with
  | nil => rfl
  | cons x bs ih =>
    have h' : wrapAddr (a + 1) = wrapAddr (b + 1) := by simp only [wrapAddr] at h ⊢; omega
    rw [writeBytes, writeBytes, write_congr m h, ih _ h']

end Memory

/-! ### The same, of the state -/

namespace State

theorem readByte_congr (s : State) {a b : Nat} (h : wrapAddr a = wrapAddr b) : s.readByte a = s.readByte b :=
  Memory.read_congr _ h

@[simp] theorem readByte_wrapAddr (s : State) (a : Nat) : s.readByte (wrapAddr a) = s.readByte a := Memory.read_wrapAddr _ a

theorem readByte_storeBytes_of_ne {s : State} (hm : Memory.wf s.fontRom s.mem) (a : Nat) (bs : List Byte) (b : Nat)
    (h : ∀ k < bs.length, wrapAddr b ≠ wrapAddr (a + k)) : (s.storeBytes a bs).readByte b = s.readByte b :=
  Memory.read_writeBytes_of_ne hm a bs b h

theorem readByte_storeBytes_get {s : State} (hm : Memory.wf s.fontRom s.mem) (a : Nat) (bs : List Byte) (hlen : bs.length ≤ 4096) (k : Nat)
    (hk : k < bs.length) : (s.storeBytes a bs).readByte (a + k) = bs[k] :=
  Memory.read_writeBytes_get hm a bs hlen k hk

/-- The I-relative address of offset k is k bytes after that of offset 0. -/
theorem indexAddr_eq (s : State) (k : Nat) : s.indexAddr k = wrapAddr (s.indexAddr 0 + k) := by
  simp [indexAddr, wrapAddr_add]

@[simp] theorem wrapAddr_indexAddr (s : State) (k : Nat) : wrapAddr (s.indexAddr k) = s.indexAddr k := by simp [indexAddr]

@[simp] theorem readByte_indexAddr_add (s t : State) (k : Nat) : t.readByte (s.indexAddr 0 + k) = t.readByte (s.indexAddr k) :=
  readByte_congr t (by rw [← indexAddr_eq, wrapAddr_indexAddr])

end State

end Sys2Proof.Machine
end

