-- ==== Sys2Proof/Laws/Registers.lean ====
section
/-! SUPPORT. Registers, pc, I, stack, keys: what a read gives after a write. -/

namespace Sys2Proof.Machine

/-! ### Numbers -/

theorem toNat_pc_of_wrap (n : Nat) : (BitVec.ofNat 12 (wrapAddr n)).toNat = n % 4096 := by simp [wrapAddr]

theorem toNat_index_of_wrap (n : Nat) : (BitVec.ofNat 16 (wrapAddr n)).toNat = n % 4096 := by
  simp only [wrapAddr, BitVec.toNat_ofNat]; omega

theorem toNat_keyByte (k : Fin 16) : (keyByte k).toNat = k.val := by
  simp only [keyByte, BitVec.toNat_ofNat]; omega

theorem toNat_countDown (t : Byte) : (countDown t).toNat = t.toNat - 1 := by
  unfold countDown
  split
  · simp [*]
  · have h0 : t.toNat ≠ 0 := fun h => ‹¬t = 0› (BitVec.eq_of_toNat_eq h)
    bv_omega

theorem flagByte_eq_ite (b : Bool) : flagByte b = if b = true then 1 else 0 := rfl

/-! ### General registers -/

namespace State

@[simp] theorem reg_setReg (s : State) (x r : Nibble) (b : Byte) :
    (s.setReg x b).reg r = if r = x then b else s.reg r := by
  simp [reg, setReg, Vector.getElem_set, BitVec.toNat_inj, eq_comm]

/-- A block of register writes: register `k + j` gets byte j, every other register keeps its value. -/
theorem reg_setRegsFrom (s : State) (k : Nat) (bs : List Byte) (hk : k + bs.length ≤ 16) (r : Nibble) :
    (s.setRegsFrom k bs).reg r =
      if h : k ≤ r.toNat ∧ r.toNat - k < bs.length then bs[r.toNat - k]'h.2 else s.reg r := by
  induction bs generalizing s k with
  | nil => simp [setRegsFrom]
  | cons b bs ih =>
    simp only [List.length_cons] at hk ⊢
    have hr := r.isLt
    rw [setRegsFrom, ih _ _ (by omega), reg_setReg]
    have hx : r = BitVec.ofNat 4 k ↔ r.toNat = k := by
      rw [← BitVec.toNat_inj, BitVec.toNat_ofNat, Nat.mod_eq_of_lt (by omega)]
    by_cases h : k + 1 ≤ r.toNat ∧ r.toNat - (k + 1) < bs.length
    · have h' : k ≤ r.toNat ∧ r.toNat - k < bs.length + 1 := by omega
      obtain ⟨j, hj⟩ : ∃ j, r.toNat - k = j + 1 := ⟨r.toNat - k - 1, by omega⟩
      have hj' : r.toNat - (k + 1) = j := by omega
      rw [dif_pos h, dif_pos h']
      simp only [hj, hj', List.getElem_cons_succ]
    · rw [dif_neg h]
      by_cases hk' : r.toNat = k
      · have h0 : r.toNat - k = 0 := by omega
        rw [if_pos (hx.2 hk'), dif_pos ⟨by omega, by omega⟩]
        simp only [h0, List.getElem_cons_zero]
      · rw [if_neg (mt hx.1 hk'), dif_neg (by omega)]

@[simp] theorem length_regsThrough (s : State) (x : Nibble) : (s.regsThrough x).length = x.toNat + 1 := by simp [regsThrough]

@[simp] theorem getElem_regsThrough (s : State) (x : Nibble) (k : Nat) (h : k < (s.regsThrough x).length) :
    (s.regsThrough x)[k] = s.reg (BitVec.ofNat 4 k) := by simp [regsThrough]

@[simp] theorem length_indexBytes (s : State) (n : Nat) : (s.indexBytes n).length = n := by
  simp [indexBytes, Memory.readBytes]

/-! ### pc and I -/

theorem toNat_setPc_pc (s : State) (n : Nat) : (s.setPc n).pc.toNat = n % 4096 := toNat_pc_of_wrap n

theorem toNat_setIndex_i (s : State) (n : Nat) : (s.setIndex n).i.toNat = n % 4096 := toNat_index_of_wrap n

/-! ### The stack -/

/-- After a push below the limit: one more entry, the value in the slot SP named, every other entry as before. -/
theorem stackEntry_push (s : State) (e : Word) (h : s.sp ≠ 16) (j : Fin 16) :
    (s.push e).stackEntry j = if j.val = s.sp.val then e else s.stackEntry j := by
  have : s.sp.val < 16 := by omega
  simp only [stackEntry, push_stack, Vector.getElem_set, Fin.val_ofNat, Nat.mod_eq_of_lt this, eq_comm (a := s.sp.val)]

theorem val_push_sp (s : State) (e : Word) (h : s.sp ≠ 16) : (s.push e).sp.val = s.sp.val + 1 := by
  simp only [push_sp, Fin.val_ofNat]; omega

theorem val_pop_sp (s : State) : s.pop.sp.val = s.sp.val - 1 := by
  simp only [pop_sp, Fin.val_ofNat]; omega

/-- The entry a pop reads is the one below SP. -/
theorem topEntry_eq (s : State) (j : Fin 16) (h : j.val + 1 = s.sp.val) : s.topEntry = s.stackEntry j := by
  have : Fin.ofNat 16 (s.sp.val - 1) = j := by ext; simp only [Fin.val_ofNat]; omega
  rw [topEntry, this]

/-! ### Keys -/

@[simp] theorem key_setKey (s : State) (q k : Fin 16) (b : Bool) :
    (s.setKey q b).key k = if k = q then b else s.key k := by
  simp [key, setKey, Vector.getElem_set, Fin.ext_iff, eq_comm]

end State

end Sys2Proof.Machine
end

