-- ==== Sys2Proof/Laws/Tick.lean ====
section
/-! SUPPORT. What an instruction and a tick can do, said once: the branches of the instructions that branch, that every
instruction ends in a next state, and the three forms of a tick. -/

namespace Sys2Proof.Machine

/-! ### The instructions that branch -/

theorem execRet_empty {s : State} (h : s.sp = 0) : execRet s = .next (s.fatal .stackUnderflow) := if_pos h

theorem execRet_pop {s : State} (h : s.sp ≠ 0) : execRet s = .next (s.pop.setPc (s.topEntry.toNat + 2)) := if_neg h

theorem execCall_full {nnn : Addr} {s : State} (h : s.sp = 16) : execCall nnn s = .next (s.fatal .stackOverflow) := if_pos h

theorem execCall_push {nnn : Addr} {s : State} (h : s.sp ≠ 16) :
    execCall nnn s = .next ((s.push (s.pc.setWidth 16)).setPc nnn.toNat) := if_neg h

theorem execLdVxK_some {x : Nibble} {s : State} {k : Fin 16} (h : s.anyPressed = some k) :
    execLdVxK x s = .next (s.storeKey x k) := by rw [execLdVxK, h]

theorem execLdVxK_none {x : Nibble} {s : State} (h : s.anyPressed = none) :
    execLdVxK x s = .next (s.enterKeyWait x) := by rw [execLdVxK, h]

theorem keyWaitPoll_some {s : State} {k : Fin 16} (h : s.anyPressed = some k) :
    s.keyWaitPoll = (s.storeKey s.waitReg k).resume := by rw [State.keyWaitPoll, h]

theorem keyWaitPoll_none {s : State} (h : s.anyPressed = none) : s.keyWaitPoll = s := by rw [State.keyWaitPoll, h]

/-! ### Every instruction ends in a next state -/

/-- The state an instruction ends in. -/
def afterExec (i : Instr) (s : State) : State :=
  match exec i s with
  | .next t => t
  | .fault _ => s
  | .refused _ => s

/-- No instruction faults and none is refused (spec/60_exceptions.md R185). -/
theorem exec_eq_next (i : Instr) (s : State) : exec i s = .next (afterExec i s) := by
  cases i with
  | ret => by_cases h : s.sp = 0 <;> simp [afterExec, exec, execRet, h]
  | call nnn => by_cases h : s.sp = 16 <;> simp [afterExec, exec, execCall, h]
  | ldVxK x => cases h : s.anyPressed <;> simp [afterExec, exec, execLdVxK, h]
  | _ => rfl

theorem afterExec_of_exec {i : Instr} {s t : State} (h : exec i s = .next t) : afterExec i s = t := by
  rw [exec_eq_next] at h; exact Host.Outcome.next.inj h

/-! ### What each instruction leaves, written over the shared operations -/

@[simp] theorem afterExec_cls (s : State) : afterExec .cls s =
    (s.setDisplay Display.blank).advance 2 := rfl
@[simp] theorem afterExec_ret (s : State) : afterExec .ret s =
    if s.sp = 0 then s.fatal .stackUnderflow else s.pop.setPc (s.topEntry.toNat + 2) := by
  by_cases h : s.sp = 0 <;> simp [afterExec, exec, execRet, h]
@[simp] theorem afterExec_jp (s : State) (nnn : Addr) : afterExec (.jp nnn) s =
    s.setPc nnn.toNat := rfl
@[simp] theorem afterExec_call (s : State) (nnn : Addr) : afterExec (.call nnn) s =
    if s.sp = 16 then s.fatal .stackOverflow else (s.push (s.pc.setWidth 16)).setPc nnn.toNat := by
  by_cases h : s.sp = 16 <;> simp [afterExec, exec, execCall, h]
@[simp] theorem afterExec_seByte (s : State) (x : Nibble) (nn : Byte) : afterExec (.seByte x nn) s =
    s.skipIf (s.reg x == nn) := rfl
@[simp] theorem afterExec_sneByte (s : State) (x : Nibble) (nn : Byte) : afterExec (.sneByte x nn) s =
    s.skipIf (s.reg x != nn) := rfl
@[simp] theorem afterExec_seReg (s : State) (x : Nibble) (y : Nibble) : afterExec (.seReg x y) s =
    s.skipIf (s.reg x == s.reg y) := rfl
@[simp] theorem afterExec_ldByte (s : State) (x : Nibble) (nn : Byte) : afterExec (.ldByte x nn) s =
    s.result x nn := rfl
@[simp] theorem afterExec_addByte (s : State) (x : Nibble) (nn : Byte) : afterExec (.addByte x nn) s =
    s.result x (s.reg x + nn) := rfl
@[simp] theorem afterExec_ldReg (s : State) (x : Nibble) (y : Nibble) : afterExec (.ldReg x y) s =
    s.result x (s.reg y) := rfl
@[simp] theorem afterExec_orReg (s : State) (x : Nibble) (y : Nibble) : afterExec (.orReg x y) s =
    s.result x (s.reg x ||| s.reg y) := rfl
@[simp] theorem afterExec_andReg (s : State) (x : Nibble) (y : Nibble) : afterExec (.andReg x y) s =
    s.result x (s.reg x &&& s.reg y) := rfl
@[simp] theorem afterExec_xorReg (s : State) (x : Nibble) (y : Nibble) : afterExec (.xorReg x y) s =
    s.result x (s.reg x ^^^ s.reg y) := rfl
@[simp] theorem afterExec_addReg (s : State) (x : Nibble) (y : Nibble) : afterExec (.addReg x y) s =
    s.flaggedResult x (s.reg x + s.reg y) (carryFlag (s.reg x) (s.reg y)) := rfl
@[simp] theorem afterExec_subReg (s : State) (x : Nibble) (y : Nibble) : afterExec (.subReg x y) s =
    s.flaggedResult x (s.reg x - s.reg y) (noBorrowFlag (s.reg x) (s.reg y)) := rfl
@[simp] theorem afterExec_shr (s : State) (x : Nibble) (y : Nibble) : afterExec (.shr x y) s =
    s.flaggedResult x (s.reg x >>> 1) (shiftedOutLow (s.reg x)) := rfl
@[simp] theorem afterExec_subnReg (s : State) (x : Nibble) (y : Nibble) : afterExec (.subnReg x y) s =
    s.flaggedResult x (s.reg y - s.reg x) (noBorrowFlag (s.reg y) (s.reg x)) := rfl
@[simp] theorem afterExec_shl (s : State) (x : Nibble) (y : Nibble) : afterExec (.shl x y) s =
    s.flaggedResult x (s.reg x <<< 1) (shiftedOutHigh (s.reg x)) := rfl
@[simp] theorem afterExec_sneReg (s : State) (x : Nibble) (y : Nibble) : afterExec (.sneReg x y) s =
    s.skipIf (s.reg x != s.reg y) := rfl
@[simp] theorem afterExec_ldI (s : State) (nnn : Addr) : afterExec (.ldI nnn) s =
    (s.setIndex nnn.toNat).advance 2 := rfl
@[simp] theorem afterExec_jpV0 (s : State) (nnn : Addr) : afterExec (.jpV0 nnn) s =
    s.setPc (s.indexedTarget nnn) := rfl
@[simp] theorem afterExec_rnd (s : State) (x : Nibble) (nn : Byte) : afterExec (.rnd x nn) s =
    s.drawn.result x (s.rndByte &&& nn) := rfl
@[simp] theorem afterExec_drw (s : State) (x : Nibble) (y : Nibble) (n : Nibble) : afterExec (.drw x y n) s =
    ((s.setDisplay (s.drawing x y n).fb).setReg vF (flagByte (s.drawing x y n).col)).advance 2 := rfl
@[simp] theorem afterExec_skp (s : State) (x : Nibble) : afterExec (.skp x) s =
    s.skipIf (s.isPressed (s.reg x)) := rfl
@[simp] theorem afterExec_sknp (s : State) (x : Nibble) : afterExec (.sknp x) s =
    s.skipIf (!s.isPressed (s.reg x)) := rfl
@[simp] theorem afterExec_ldVxDt (s : State) (x : Nibble) : afterExec (.ldVxDt x) s =
    (s.setReg x s.dt).advance 2 := rfl
@[simp] theorem afterExec_ldVxK (s : State) (x : Nibble) : afterExec (.ldVxK x) s =
    match s.anyPressed with | some k => s.storeKey x k | none => s.enterKeyWait x := by
  cases h : s.anyPressed <;> simp [afterExec, exec, execLdVxK, h]
@[simp] theorem afterExec_ldDtVx (s : State) (x : Nibble) : afterExec (.ldDtVx x) s =
    (s.setDelay (s.reg x)).advance 2 := rfl
@[simp] theorem afterExec_ldStVx (s : State) (x : Nibble) : afterExec (.ldStVx x) s =
    (s.setSound (s.reg x)).advance 2 := rfl
@[simp] theorem afterExec_addI (s : State) (x : Nibble) : afterExec (.addI x) s =
    (s.setIndex (s.i.toNat + (s.reg x).toNat)).advance 2 := rfl
@[simp] theorem afterExec_ldF (s : State) (x : Nibble) : afterExec (.ldF x) s =
    (s.setIndex (glyphAddr (s.reg x))).advance 2 := rfl
@[simp] theorem afterExec_ldB (s : State) (x : Nibble) : afterExec (.ldB x) s =
    (s.storeBytes (s.indexAddr 0) (decimalDigits (s.reg x))).advance 2 := rfl
@[simp] theorem afterExec_storeRegs (s : State) (x : Nibble) : afterExec (.storeRegs x) s =
    (s.storeBytes (s.indexAddr 0) (s.regsThrough x)).advance 2 := rfl
@[simp] theorem afterExec_loadRegs (s : State) (x : Nibble) : afterExec (.loadRegs x) s =
    ((s.setRegsFrom 0 (s.indexBytes (x.toNat + 1))).setIndex (s.i.toNat + x.toNat + 1)).advance 2 := rfl

/-! ### The three forms of a tick (spec/40_cycle.md R91) -/

/-- The state the execute phase of a tick ends in: the instruction's, or the report of an unsupported word. -/
def afterWord (op : Opcode) (s : State) : State :=
  match decodeWord op with
  | some i => afterExec i s
  | none => s.unsupported op

theorem runWord_eq_next (op : Opcode) (s : State) : runWord op s = .next (afterWord op s) := by
  cases h : decodeWord op <;> simp [runWord, afterWord, h, exec_eq_next]

theorem closeTick_next (t : State) : closeTick (.next t) = .next (if t.mode = .halted then t else t.timerPhase) := by
  by_cases h : t.mode = .halted <;> simp [closeTick, h]

theorem step_running {s : State} (h : s.mode = .running) :
    step s = closeTick (.next (afterWord s.fetchWord s.openTick)) := by
  simp only [step, tick, h, runWord_eq_next]

theorem step_keyWait {s : State} (h : s.mode = .keyWait) : step s = .next s.openTick.keyWaitPoll.timerPhase := by
  simp only [step, tick, h]

theorem step_halted {s : State} (h : s.mode = .halted) : step s = .next s.openTick := by
  simp only [step, tick, h]

/-- Everything a tick can do: run a supported word, report an unsupported one, poll the keypad, or nothing. -/
theorem step_cases {s t : State} (h : step s = .next t) :
    (∃ i, s.mode = .running ∧ decodeWord s.fetchWord = some i ∧
      t = if (afterExec i s.openTick).mode = .halted then afterExec i s.openTick
        else (afterExec i s.openTick).timerPhase) ∨
    (s.mode = .running ∧ decodeWord s.fetchWord = none ∧ t = (s.openTick.unsupported s.fetchWord).timerPhase) ∨
    (∃ k, s.mode = .keyWait ∧ s.anyPressed = some k ∧ t = ((s.openTick.storeKey s.waitReg k).resume).timerPhase) ∨
    (s.mode = .keyWait ∧ s.anyPressed = none ∧ t = s.openTick.timerPhase) ∨
    (s.mode = .halted ∧ t = s.openTick) := by
  cases hm : s.mode with
  | running =>
    rw [step_running hm, closeTick_next] at h
    have ht := (Host.Outcome.next.inj h).symm
    cases hd : decodeWord s.fetchWord with
    | some i =>
      simp only [afterWord, hd] at ht
      exact .inl ⟨i, rfl, rfl, ht⟩
    | none =>
      simp only [afterWord, hd] at ht
      exact .inr (.inl ⟨rfl, rfl, by simpa [hm] using ht⟩)
  | keyWait =>
    rw [step_keyWait hm] at h
    have ht := (Host.Outcome.next.inj h).symm
    cases hk : s.anyPressed with
    | some k => exact .inr (.inr (.inl ⟨k, rfl, rfl, by rw [ht, keyWaitPoll_some (by exact hk)]; rfl⟩))
    | none => exact .inr (.inr (.inr (.inl ⟨rfl, rfl, by rw [ht, keyWaitPoll_none (by exact hk)]⟩)))
  | halted =>
    rw [step_halted hm] at h
    exact .inr (.inr (.inr (.inr ⟨rfl, (Host.Outcome.next.inj h).symm⟩)))

end Sys2Proof.Machine
end

