-- ==== Sys2Proof/Laws/Frames.lean ====
section
/-! SUPPORT. How frames are proved and combined. -/

namespace Sys2Proof.Machine

theorem Part.Same.refl (p : Part) (s : State) : p.Same s s := by cases p <;> simp [Part.Same]

theorem Part.Same.trans {p : Part} {s t u : State} (h : p.Same s t) (h' : p.Same t u) : p.Same s u := by
  cases p <;> simp_all [Part.Same]

theorem SameBut.refl (ps : List Part) (s : State) : SameBut ps s s := fun p _ => Part.Same.refl p s

/-- Frames combine: what neither step changes is unchanged. -/
theorem SameBut.trans {ps : List Part} {s t u : State} (h : SameBut ps s t) (h' : SameBut ps t u) : SameBut ps s u :=
  fun p hp => (h p hp).trans (h' p hp)

/-- A frame may list more than is changed. -/
theorem SameBut.mono {ps qs : List Part} {s t : State} (h : SameBut ps s t) (hsub : ps ⊆ qs) : SameBut qs s t :=
  fun p hp => h p fun hmem => hp (hsub hmem)

/-- pc after a move of n bytes. -/
theorem PcPlus_setPc (n : Nat) (s t : State) : PcPlus n s (t.setPc (s.pc.toNat + n)) := State.toNat_setPc_pc t _

/-- Writing pc changes no part. -/
theorem SameBut_setPc (s : State) (n : Nat) : SameBut [] s (s.setPc n) := fun p _ => by cases p <;> simp [Part.Same]

/-- The opening of a tick touches three outputs only. -/
theorem SameBut_openTick (s : State) : SameBut [.fbChanged, .started, .report] s s.openTick := fun p hp => by
  cases p <;> simp_all [Part.Same]

/-- The timer phase touches the timers only. -/
theorem SameBut_timerPhase (s : State) : SameBut [.delay, .sound] s s.timerPhase := fun p hp => by
  cases p <;> simp_all [Part.Same]

end Sys2Proof.Machine
end

