-- ==== Sys2Proof/Laws/PerInstr.lean ====
section
/-! SUPPORT. Statements about every instruction as syntax, one lemma per constructor. EncodesItsRow: the word of an instruction,
masked as the opcode map says, is the row's match value, for every value of its fields (spec/30_encoding.md R74, R75). -/

namespace Sys2Proof.Laws.EncodesItsRow

/-- The word of the instruction matches its row. -/
def Statement (i : Instr) : Prop := i.row.matchesWord (encode i) = true

variable (a x y n : Nibble) (nn : Byte) (nnn : Addr)

theorem matches_NNN (m : Opcode) (h : m = wordNNN a 0) : (⟨m, 0xF000⟩ : OpcodeRow).matchesWord (wordNNN a nnn) = true := by
  subst h
  have : wordNNN a nnn &&& wordNNN 0xF 0 = wordNNN (a &&& 0xF) (nnn &&& 0) := BitVec.and_append
  have h15 : a &&& 0xF = a := BitVec.and_allOnes (x := a)
  have h0 : nnn &&& 0 = 0 := BitVec.and_zero
  rw [h15, h0] at this
  exact beq_iff_eq.2 this

theorem matches_XNN (m : Opcode) (h : m = wordXNN a 0 0) : (⟨m, 0xF000⟩ : OpcodeRow).matchesWord (wordXNN a x nn) = true :=
  matches_NNN a (x ++ nn) m h

theorem matches_XFF (m : Opcode) (h : m = wordXNN a 0 nn) : (⟨m, 0xF0FF⟩ : OpcodeRow).matchesWord (wordXNN a x nn) = true := by
  subst h
  have : wordXNN a x nn &&& wordXNN 0xF 0 0xFF = wordXNN (a &&& 0xF) (x &&& 0) (nn &&& 0xFF) := by
    have h₁ : (x ++ nn) &&& ((0 : Nibble) ++ (0xFF : Byte)) = (x &&& 0) ++ (nn &&& 0xFF) := BitVec.and_append
    have h₂ : wordXNN a x nn &&& wordXNN 0xF 0 0xFF = (a &&& 0xF) ++ ((x ++ nn) &&& ((0 : Nibble) ++ (0xFF : Byte))) :=
      BitVec.and_append
    rw [h₂, h₁]; rfl
  have h15 : a &&& 0xF = a := BitVec.and_allOnes (x := a)
  have h255 : nn &&& 0xFF = nn := BitVec.and_allOnes (x := nn)
  have h0 : x &&& 0 = 0 := BitVec.and_zero
  rw [h15, h255, h0] at this
  exact beq_iff_eq.2 this

theorem matches_XYF (m : Opcode) (h : m = wordXYN a 0 0 n) :
    (⟨m, 0xF00F⟩ : OpcodeRow).matchesWord (wordXYN a x y n) = true := by
  subst h
  have : wordXYN a x y n &&& wordXYN 0xF 0 0 0xF = wordXYN (a &&& 0xF) (x &&& 0) (y &&& 0) (n &&& 0xF) := by
    have h₀ : (y ++ n) &&& ((0 : Nibble) ++ (0xF : Nibble)) = (y &&& 0) ++ (n &&& 0xF) := BitVec.and_append
    have h₁ : (x ++ (y ++ n)) &&& ((0 : Nibble) ++ ((0 : Nibble) ++ (0xF : Nibble))) =
        (x &&& 0) ++ ((y ++ n) &&& ((0 : Nibble) ++ (0xF : Nibble))) := BitVec.and_append
    have h₂ : wordXYN a x y n &&& wordXYN 0xF 0 0 0xF =
        (a &&& 0xF) ++ ((x ++ (y ++ n)) &&& ((0 : Nibble) ++ ((0 : Nibble) ++ (0xF : Nibble)))) := BitVec.and_append
    rw [h₂, h₁, h₀]; rfl
  have h15 : ∀ v : Nibble, v &&& 0xF = v := fun v => BitVec.and_allOnes (x := v)
  have h0 : ∀ v : Nibble, v &&& 0 = 0 := fun v => BitVec.and_zero
  rw [h15, h15, h0, h0] at this
  exact beq_iff_eq.2 this

theorem matches_XYN (m : Opcode) (h : m = wordXYN a 0 0 0) :
    (⟨m, 0xF000⟩ : OpcodeRow).matchesWord (wordXYN a x y n) = true := matches_NNN a (x ++ (y ++ n)) m h

theorem cls : Statement .cls := rfl
theorem ret : Statement .ret := rfl
theorem jp : Statement (.jp nnn) := matches_NNN _ nnn _ rfl
theorem call : Statement (.call nnn) := matches_NNN _ nnn _ rfl
theorem seByte : Statement (.seByte x nn) := matches_XNN _ x nn _ rfl
theorem sneByte : Statement (.sneByte x nn) := matches_XNN _ x nn _ rfl
theorem seReg : Statement (.seReg x y) := matches_XYF _ x y _ _ rfl
theorem ldByte : Statement (.ldByte x nn) := matches_XNN _ x nn _ rfl
theorem addByte : Statement (.addByte x nn) := matches_XNN _ x nn _ rfl
theorem ldReg : Statement (.ldReg x y) := matches_XYF _ x y _ _ rfl
theorem orReg : Statement (.orReg x y) := matches_XYF _ x y _ _ rfl
theorem andReg : Statement (.andReg x y) := matches_XYF _ x y _ _ rfl
theorem xorReg : Statement (.xorReg x y) := matches_XYF _ x y _ _ rfl
theorem addReg : Statement (.addReg x y) := matches_XYF _ x y _ _ rfl
theorem subReg : Statement (.subReg x y) := matches_XYF _ x y _ _ rfl
theorem shr : Statement (.shr x y) := matches_XYF _ x y _ _ rfl
theorem subnReg : Statement (.subnReg x y) := matches_XYF _ x y _ _ rfl
theorem shl : Statement (.shl x y) := matches_XYF _ x y _ _ rfl
theorem sneReg : Statement (.sneReg x y) := matches_XYF _ x y _ _ rfl
theorem ldI : Statement (.ldI nnn) := matches_NNN _ nnn _ rfl
theorem jpV0 : Statement (.jpV0 nnn) := matches_NNN _ nnn _ rfl
theorem rnd : Statement (.rnd x nn) := matches_XNN _ x nn _ rfl
theorem drw : Statement (.drw x y n) := matches_XYN _ x y n _ rfl
theorem skp : Statement (.skp x) := matches_XFF _ x _ _ rfl
theorem sknp : Statement (.sknp x) := matches_XFF _ x _ _ rfl
theorem ldVxDt : Statement (.ldVxDt x) := matches_XFF _ x _ _ rfl
theorem ldVxK : Statement (.ldVxK x) := matches_XFF _ x _ _ rfl
theorem ldDtVx : Statement (.ldDtVx x) := matches_XFF _ x _ _ rfl
theorem ldStVx : Statement (.ldStVx x) := matches_XFF _ x _ _ rfl
theorem addI : Statement (.addI x) := matches_XFF _ x _ _ rfl
theorem ldF : Statement (.ldF x) := matches_XFF _ x _ _ rfl
theorem ldB : Statement (.ldB x) := matches_XFF _ x _ _ rfl
theorem storeRegs : Statement (.storeRegs x) := matches_XFF _ x _ _ rfl
theorem loadRegs : Statement (.loadRegs x) := matches_XFF _ x _ _ rfl

end Sys2Proof.Laws.EncodesItsRow
end

