-- ==== Sys2Proof/Tests/Slice0.lean ====
section
/-! SUPPORT. Tests. Expected values come from the spec: words written bit by bit from spec/30_encoding.md R72 and R75, and the
vectors of spec/95_test_vectors.md, named in each docstring. Witnesses show that the hypotheses of the obligations can be
  met. -/

namespace Sys2Proof.Tests

open Sys2Proof.Machine

/-! ### Well-formedness refuses ill-formed terms -/

/-- A register number of 16 does not fit the four bits of x, nor 256 the eight of nn, nor 4096 the twelve of nnn (R71). -/
theorem test_fields_too_wide : fieldFits (16, 4) = false ∧ fieldFits (256, 8) = false ∧ fieldFits (4096, 12) = false := by
  decide
theorem test_fields_at_the_bound : fieldFits (15, 4) = true ∧ fieldFits (255, 8) = true ∧ fieldFits (4095, 12) = true := by
  decide
theorem test_keyPress_of_no_key : (HostAction.keyPress 16).wf = false := by decide
theorem test_keyRelease_of_no_key : (HostAction.keyRelease 16).wf = false := by decide
theorem test_load_past_the_image : (HostAction.load 3584 0).wf = false := by decide

/-! ### Decoding: each word is written bit by bit from the formats of R72 and the literal digits of R75 -/

theorem test_decode_cls : decodeWord 0b0000_0000_1110_0000 = some (.cls) := by decide
theorem test_decode_ret : decodeWord 0b0000_0000_1110_1110 = some (.ret) := by decide
theorem test_decode_jp : decodeWord 0b0001_1010_1011_1100 = some (.jp 0xABC) := by decide
theorem test_decode_call : decodeWord 0b0010_0010_0000_1110 = some (.call 0x20E) := by decide
theorem test_decode_seByte : decodeWord 0b0011_0011_0000_0101 = some (.seByte 3 0x05) := by decide
theorem test_decode_sneByte : decodeWord 0b0100_0011_0000_0110 = some (.sneByte 3 0x06) := by decide
theorem test_decode_seReg : decodeWord 0b0101_0001_0010_0000 = some (.seReg 1 2) := by decide
theorem test_decode_ldByte : decodeWord 0b0110_1010_0010_1111 = some (.ldByte 0xA 0x2F) := by decide
theorem test_decode_addByte : decodeWord 0b0111_0010_1100_0010 = some (.addByte 2 0xC2) := by decide
theorem test_decode_ldReg : decodeWord 0b1000_0000_0001_0000 = some (.ldReg 0 1) := by decide
theorem test_decode_orReg : decodeWord 0b1000_0010_0011_0001 = some (.orReg 2 3) := by decide
theorem test_decode_andReg : decodeWord 0b1000_0100_0101_0010 = some (.andReg 4 5) := by decide
theorem test_decode_xorReg : decodeWord 0b1000_0110_0111_0011 = some (.xorReg 6 7) := by decide
theorem test_decode_addReg : decodeWord 0b1000_0011_0100_0100 = some (.addReg 3 4) := by decide
theorem test_decode_subReg : decodeWord 0b1000_1000_1001_0101 = some (.subReg 8 9) := by decide
theorem test_decode_shr : decodeWord 0b1000_0100_0111_0110 = some (.shr 4 7) := by decide
theorem test_decode_subnReg : decodeWord 0b1000_1010_1011_0111 = some (.subnReg 0xA 0xB) := by decide
theorem test_decode_shl : decodeWord 0b1000_0100_0111_1110 = some (.shl 4 7) := by decide
theorem test_decode_sneReg : decodeWord 0b1001_0001_0010_0000 = some (.sneReg 1 2) := by decide
theorem test_decode_ldI : decodeWord 0b1010_0011_0000_0001 = some (.ldI 0x301) := by decide
theorem test_decode_jpV0 : decodeWord 0b1011_0011_0000_1000 = some (.jpV0 0x308) := by decide
theorem test_decode_rnd : decodeWord 0b1100_0011_0000_1111 = some (.rnd 3 0x0F) := by decide
theorem test_decode_drw : decodeWord 0b1101_0000_0001_0101 = some (.drw 0 1 5) := by decide
theorem test_decode_skp : decodeWord 0b1110_0001_1001_1110 = some (.skp 1) := by decide
theorem test_decode_sknp : decodeWord 0b1110_0001_1010_0001 = some (.sknp 1) := by decide
theorem test_decode_ldVxDt : decodeWord 0b1111_0011_0000_0111 = some (.ldVxDt 3) := by decide
theorem test_decode_ldVxK : decodeWord 0b1111_0101_0000_1010 = some (.ldVxK 5) := by decide
theorem test_decode_ldDtVx : decodeWord 0b1111_0101_0001_0101 = some (.ldDtVx 5) := by decide
theorem test_decode_ldStVx : decodeWord 0b1111_0101_0001_1000 = some (.ldStVx 5) := by decide
theorem test_decode_addI : decodeWord 0b1111_0010_0001_1110 = some (.addI 2) := by decide
theorem test_decode_ldF : decodeWord 0b1111_0111_0010_1001 = some (.ldF 7) := by decide
theorem test_decode_ldB : decodeWord 0b1111_0000_0011_0011 = some (.ldB 0) := by decide
theorem test_decode_storeRegs : decodeWord 0b1111_0001_0101_0101 = some (.storeRegs 1) := by decide
theorem test_decode_loadRegs : decodeWord 0b1111_0010_0110_0101 = some (.loadRegs 2) := by decide

/-- The unsupported words of spec/95_test_vectors.md 2.6. -/
theorem test_decode_unsupported :
    [0x0000, 0x0123, 0x5121, 0x8018, 0x801F, 0x9121, 0xE09F, 0xF0FF].map decodeWord = List.replicate 8 none := by decide
/-- R79: `ADD V3, V4` is stored as the bytes 0x83, 0x44, and decoding leaves what follows. -/
theorem test_decode_bytes : decodeBytes [0x83, 0x44, 0x12] = .ok (.addReg 3 4, [0x12]) := by decide
/-- Half a word decodes to nothing, by name. -/
theorem test_decode_truncated : decodeBytes [0x83] = .error .truncated ∧ decodeBytes [] = .error .truncated := by decide
theorem test_decode_unsupported_by_name : decodeBytes [0xF0, 0xFF] = .error (.unsupported 0xF0FF) := by decide
/-- The host numbers the bits of a word as the table does: bit 0 is the least significant. -/
theorem test_decodeTableWord : decodeTableWord 16 0x8344 = some (.addReg 3 4) := by decide

/-! ### One tick each: the vectors of spec/95_test_vectors.md -/

/-- The state after RESET with the word under test at 0x200 (the conventions of spec/95_test_vectors.md). -/
def withWord (w : Nat) : State := State.reset.withFetchWord 16 w

/-- Whether a result is a next state with that property. -/
def nextGives (r : Result) (p : State → Bool) : Bool :=
  match r with
  | .next t => p t
  | .fault _ => false
  | .refused _ => false

/-- Whether a tick ends in a next state with that property. -/
def tickGives (s : State) (p : State → Bool) : Bool := nextGives (step s) p

/-- Whether a result is that refusal. -/
def refusesAs (r : Result) (q : Refusal) : Bool :=
  match r with
  | .next _ => false
  | .fault _ => false
  | .refused q' => q' == q

/-- The cells set in a display, column and row, by row. -/
def cellsSet (fb : Display) : List (Nat × Nat) :=
  ((List.finRange 32).map fun y => ((List.finRange 64).filter fun x => Display.cell fb x y).map fun x => (x.val, y.val)).flatten

/-- A state with cells set. -/
def withCells (s : State) (cells : List (Fin 64 × Fin 32)) : State :=
  { s with fb := cells.foldl (fun fb c => Display.toggle fb c.1 c.2) s.fb }

/-- Vector D7. -/
theorem test_cls_keeps_vf : tickGives (withCells ((withWord 0x00E0).setReg 0xF 7) [(3, 3)])
    (fun t => cellsSet t.fb == [] && t.fbChanged && t.reg 0xF == 7 && t.pc == 0x202) = true := by decide
/-- Vector F5. -/
theorem test_ret : tickGives ((({ State.reset with pc := 0x30A, sp := 1, stack := State.reset.stack.set 0 0x208 }).storeBytes
  0x30A [0x00]).storeBytes 0x30B [0xEE])
    (fun t => t.sp == 0 && t.pc == 0x20A && t.stackEntry 0 == 0x208) = true := by decide
/-- Vector F7, C7. -/
theorem test_ret_underflow : tickGives ({ withWord 0x00EE with dt := 2 })
    (fun t => t.mode == .halted && t.err == .stackUnderflow && t.pc == 0x200 && t.dt == 2) = true := by decide
/-- Vector F1. -/
theorem test_jp : tickGives (withWord 0x1ABC)
    (fun t => t.pc == 0xABC) = true := by decide
/-- Vector F3. -/
theorem test_call : tickGives (withWord 0x2456)
    (fun t => t.stackEntry 0 == 0x200 && t.sp == 1 && t.pc == 0x456) = true := by decide
/-- Vector F4. -/
theorem test_call_overflow : tickGives ({ withWord 0x2456 with sp := 16 })
    (fun t => t.mode == .halted && t.err == .stackOverflow && t.pc == 0x200 && t.sp == 16) = true := by decide
/-- Vector F8. -/
theorem test_seByte_taken : tickGives ((withWord 0x3342).setReg 3 0x42)
    (fun t => t.pc == 0x204) = true := by decide
/-- Vector F9. -/
theorem test_seByte_not_taken : tickGives ((withWord 0x3342).setReg 3 0x41)
    (fun t => t.pc == 0x202) = true := by decide
/-- Vector F10. -/
theorem test_sneByte_not_taken : tickGives ((withWord 0x4342).setReg 3 0x42)
    (fun t => t.pc == 0x202) = true := by decide
/-- Vector F11. -/
theorem test_sneByte_taken : tickGives ((withWord 0x4342).setReg 3 0x41)
    (fun t => t.pc == 0x204) = true := by decide
/-- Vector F12. -/
theorem test_seReg_taken : tickGives (((withWord 0x5120).setReg 1 7).setReg 2 7)
    (fun t => t.pc == 0x204) = true := by decide
/-- Vector F13. -/
theorem test_seReg_not_taken : tickGives (((withWord 0x5120).setReg 1 7).setReg 2 8)
    (fun t => t.pc == 0x202) = true := by decide
/-- Vector A1. -/
theorem test_ldByte : tickGives (withWord 0x6A5C)
    (fun t => t.reg 0xA == 0x5C && t.pc == 0x202) = true := by decide
/-- Vector C2: the word at 0xFFF is formed with the byte at 0x000. -/
theorem test_ldByte_fetched_across_the_end : tickGives ((({ State.reset with pc := 0xFFF }).storeBytes 0xFFF
  [0x61]).storeBytes 0 [0x22])
    (fun t => t.reg 1 == 0x22 && t.pc == 1) = true := by decide
/-- Vector A2. -/
theorem test_addByte_no_carry : tickGives (((withWord 0x7202).setReg 2 0xFF).setReg 0xF 0x55)
    (fun t => t.reg 2 == 1 && t.reg 0xF == 0x55 && t.pc == 0x202) = true := by decide
/-- Vector A4. -/
theorem test_ldReg : tickGives ((withWord 0x8010).setReg 1 0x33)
    (fun t => t.reg 0 == 0x33 && t.pc == 0x202) = true := by decide
/-- Vector A5. -/
theorem test_orReg : tickGives ((((withWord 0x8011).setReg 0 0xF0).setReg 1 0x0F).setReg 0xF 0x77)
    (fun t => t.reg 0 == 0xFF && t.reg 0xF == 0x77 && t.pc == 0x202) = true := by decide
/-- Vector A6. -/
theorem test_andReg : tickGives ((((withWord 0x8012).setReg 0 0xF0).setReg 1 0x3C).setReg 0xF 0x77)
    (fun t => t.reg 0 == 0x30 && t.reg 0xF == 0x77) = true := by decide
/-- Vector A7. -/
theorem test_xorReg : tickGives ((((withWord 0x8013).setReg 0 0xF0).setReg 1 0x3C).setReg 0xF 0x77)
    (fun t => t.reg 0 == 0xCC && t.reg 0xF == 0x77) = true := by decide
/-- Vector E3. -/
theorem test_addReg_carry : tickGives (((withWord 0x8014).setReg 0 250).setReg 1 10)
    (fun t => t.reg 0 == 4 && t.reg 0xF == 1 && t.pc == 0x202) = true := by decide
/-- Vector A12. -/
theorem test_addReg_flag_wins : tickGives (((withWord 0x8F14).setReg 0xF 0xFF).setReg 1 1)
    (fun t => t.reg 0xF == 1) = true := by decide
/-- Vector E4. -/
theorem test_subReg_borrow : tickGives (((withWord 0x8015).setReg 0 5).setReg 1 10)
    (fun t => t.reg 0 == 251 && t.reg 0xF == 0) = true := by decide
/-- Vector A14. -/
theorem test_subReg_equal : tickGives (((withWord 0x8015).setReg 0 7).setReg 1 7)
    (fun t => t.reg 0 == 0 && t.reg 0xF == 1) = true := by decide
/-- Vector A21. -/
theorem test_shr_ignores_y : tickGives (((withWord 0x8476).setReg 4 5).setReg 7 0x80)
    (fun t => t.reg 4 == 2 && t.reg 0xF == 1 && t.reg 7 == 0x80) = true := by decide
/-- Vector A22. -/
theorem test_shr_flag_wins : tickGives ((withWord 0x8F06).setReg 0xF 3)
    (fun t => t.reg 0xF == 1) = true := by decide
/-- Vector A24. -/
theorem test_subnReg_borrow : tickGives (((withWord 0x8017).setReg 0 10).setReg 1 5)
    (fun t => t.reg 0 == 0xFB && t.reg 0xF == 0) = true := by decide
/-- Vector A25. -/
theorem test_subnReg : tickGives (((withWord 0x8017).setReg 0 5).setReg 1 10)
    (fun t => t.reg 0 == 5 && t.reg 0xF == 1) = true := by decide
/-- Vector A28. -/
theorem test_shl : tickGives ((withWord 0x840E).setReg 4 0x81)
    (fun t => t.reg 4 == 2 && t.reg 0xF == 1) = true := by decide
/-- Vector A30. -/
theorem test_shl_no_carry : tickGives ((withWord 0x840E).setReg 4 0x7F)
    (fun t => t.reg 4 == 0xFE && t.reg 0xF == 0) = true := by decide
/-- Vector F15. -/
theorem test_sneReg_writes_only_pc : tickGives (((withWord 0x9120).setReg 1 7).setReg 2 8)
    (fun t => t.pc == 0x204 && t.i == 0) = true := by decide
/-- Vector F16. -/
theorem test_sneReg_not_taken : tickGives (((withWord 0x9120).setReg 1 7).setReg 2 7)
    (fun t => t.pc == 0x202) = true := by decide
/-- Vector M1. -/
theorem test_ldI : tickGives (withWord 0xA123)
    (fun t => t.i == 0x123 && t.pc == 0x202) = true := by decide
/-- Vector F18. -/
theorem test_jpV0_wraps : tickGives ((withWord 0xBFFF).setReg 0 0xFF)
    (fun t => t.pc == 0x0FE) = true := by decide
/-- Vector F19. -/
theorem test_jpV0_always_adds_v0 : tickGives ((withWord 0xB300).setReg 5 0x33)
    (fun t => t.pc == 0x300) = true := by decide
/-- Vector A33. -/
theorem test_rnd : tickGives ({ withWord 0xC30F with rndIn := [0xB7] })
    (fun t => t.reg 3 == 7 && t.rndIn == [] && t.pc == 0x202) = true := by decide
/-- Vector D3. -/
theorem test_drw_wraps_both_ways : tickGives (({ (withWord 0xDFF1).setReg 0xF 0x3F with i := 0x300 }).storeBytes 0x300 [0xC0])
    (fun t => cellsSet t.fb == [(0, 31), (63, 31)] && t.reg 0xF == 0 && t.fbChanged && t.pc == 0x202) = true := by decide
/-- Vector D6. -/
theorem test_drw_collision : tickGives ((withCells ({ withWord 0xD011 with i := 0x300 }) [(0, 0), (4, 0)]).storeBytes 0x300
  [0x0F])
    (fun t => cellsSet t.fb == [(0, 0), (5, 0), (6, 0), (7, 0)] && t.reg 0xF == 1) = true := by decide
/-- Vector K1. -/
theorem test_skp_taken : tickGives (((withWord 0xE19E).setReg 1 3).setKey 3 true)
    (fun t => t.pc == 0x204) = true := by decide
/-- Vector K3. -/
theorem test_skp_of_no_key : tickGives (((withWord 0xE19E).setReg 1 0x13).setKey 3 true)
    (fun t => t.pc == 0x202) = true := by decide
/-- Vector K4. -/
theorem test_sknp_taken : tickGives ((withWord 0xE1A1).setReg 1 3)
    (fun t => t.pc == 0x204) = true := by decide
/-- Vector K5. -/
theorem test_sknp_not_taken : tickGives (((withWord 0xE1A1).setReg 1 3).setKey 3 true)
    (fun t => t.pc == 0x202) = true := by decide
/-- Vector K7. -/
theorem test_ldVxDt : tickGives ({ withWord 0xF307 with dt := 0x2A })
    (fun t => t.reg 3 == 0x2A && t.dt == 0x29 && t.pc == 0x202) = true := by decide
/-- Vector K8. -/
theorem test_ldVxK_lowest_key : tickGives ({ ((withWord 0xF50A).setKey 2 true).setKey 9 true with dt := 5 })
    (fun t => t.reg 5 == 2 && t.pc == 0x202 && t.mode == .running && t.dt == 4) = true := by decide
/-- Vector K9. -/
theorem test_ldVxK_waits : tickGives (withWord 0xF50A)
    (fun t => t.mode == .keyWait && t.waitReg == 5 && t.pc == 0x200) = true := by decide
/-- Vector K10. -/
theorem test_poll_without_a_key : tickGives ({ State.reset with mode := .keyWait, waitReg := 5, dt := 3 })
    (fun t => t.mode == .keyWait && t.pc == 0x200 && t.dt == 2) = true := by decide
/-- Vector K11. -/
theorem test_poll_with_keys : tickGives ((({ State.reset with mode := .keyWait, waitReg := 5 } : State).setKey 7 true).setKey
  0xB true)
    (fun t => t.mode == .running && t.pc == 0x202 && t.reg 5 == 7) = true := by decide
/-- Vector K14. -/
theorem test_ldDtVx : tickGives ((withWord 0xF515).setReg 5 3)
    (fun t => t.dt == 2 && t.pc == 0x202) = true := by decide
/-- Vector K13. -/
theorem test_ldDtVx_one : tickGives ((withWord 0xF515).setReg 5 1)
    (fun t => t.dt == 0) = true := by decide
/-- Vector K15. -/
theorem test_ldStVx : tickGives ((withWord 0xF518).setReg 5 0x10)
    (fun t => t.st == 0x0F && t.pc == 0x202) = true := by decide
/-- Vector M2. -/
theorem test_addI : tickGives ({ (withWord 0xF21E).setReg 2 5 with i := 0x3FE })
    (fun t => t.i == 0x403 && t.pc == 0x202) = true := by decide
/-- Vector M3. -/
theorem test_addI_wraps_without_flag : tickGives ({ (withWord 0xF21E).setReg 2 1 with i := 0xFFF })
    (fun t => t.i == 0 && t.reg 0xF == 0) = true := by decide
/-- Vector M5. -/
theorem test_ldF : tickGives ((withWord 0xF729).setReg 7 0x0A)
    (fun t => t.i == 0x082 && t.pc == 0x202) = true := by decide
/-- Vector M8. -/
theorem test_ldF_whole_register : tickGives ((withWord 0xF729).setReg 7 0xFF)
    (fun t => t.i == 0x54B) = true := by decide
/-- Vector M9. -/
theorem test_ldB : tickGives ({ (withWord 0xF033).setReg 0 0x7B with i := 0x300 })
    (fun t => t.readByte 0x300 == 1 && t.readByte 0x301 == 2 && t.readByte 0x302 == 3 && t.i == 0x300) = true := by decide
/-- Vector M13. -/
theorem test_ldB_wraps : tickGives ({ (withWord 0xF033).setReg 0 200 with i := 0xFFE })
    (fun t => t.readByte 0xFFE == 2 && t.readByte 0xFFF == 0 && t.readByte 0 == 0 && t.i == 0xFFE) = true := by decide
/-- R144 example. -/
theorem test_storeRegs : tickGives ({ ((withWord 0xF155).setReg 0 0x11).setReg 1 0x22 with i := 0x400 })
    (fun t => t.readByte 0x400 == 0x11 && t.readByte 0x401 == 0x22 && t.readByte 0x402 == 0 && t.i == 0x400) = true := by decide
/-- Vector M16. -/
theorem test_loadRegs_wraps : tickGives (((({ withWord 0xF265 with i := 0xFFE }).storeBytes 0xFFE [0xAA]).storeBytes 0xFFF
  [0xBB]).storeBytes 0 [0xCC])
    (fun t => t.reg 0 == 0xAA && t.reg 1 == 0xBB && t.reg 2 == 0xCC && t.i == 1) = true := by decide
/-- Vector M17: the last byte is the font default of decision D7. -/
theorem test_loadRegs_from_the_font : tickGives ({ withWord 0xFF65 with i := 0x050 })
    (fun t => t.reg 0 == 0xF0 && t.reg 5 == 0x20 && t.reg 0xF == 0xF0 && t.i == 0x060) = true := by decide
/-- Vector C6. -/
theorem test_unsupported_is_reported : tickGives ({ withWord 0xF0FF with dt := 2 })
    (fun t => t.report == some ⟨0xF0FF, 0x200⟩ && t.pc == 0x202 && t.dt == 1 && t.mode == .running) = true := by decide
/-- Vector C4. -/
theorem test_halted_tick : tickGives ({ State.reset with mode := .halted, err := .stackUnderflow, started := true, dt := 5 })
    (fun t => t == { State.reset with mode := .halted, err := .stackUnderflow, started := true, dt := 5 }) = true := by decide

/-! ### Witnesses: states and operands that meet the hypotheses of the obligations, at the bounds of each clause -/

/-- A core that has halted on an empty stack. -/
def haltedState : State := { withWord 0x00EE with mode := .halted, err := .stackUnderflow, started := true }
/-- A core that waits for a key for V5. -/
def waitingState : State := { withWord 0xF50A with mode := .keyWait, waitReg := 5, started := true }
/-- A machine with a FONT_ROM of its own. -/
def otherFont : State := State.resetWith (Vector.replicate 80 0xAA)

/-- `EncodeOfDecodeIsTheWord`: a word that decodes, with an ignored y field. -/
theorem witness_decoded_word :
    decodeWord 0x8476 = some (.shr 4 7) := by decide
/-- `EveryAddressWrapsModulo4096`: pc at the last address. -/
theorem witness_last_pc :
    ({ State.reset with pc := 0xFFF } : State).pc = 0xFFF := by decide
/-- `StoredByteReadsBackAndNothingElse`, `PlacedWordIsTheWordFetched`, the stores and loads of blocks: a canonical memory
that lists bytes, the last address and the first among them. -/
theorem witness_canonical_memory :
    MemoryCanonical ((withWord 0x6A5C).storeBytes 0xFFF [1, 2]) ∧
      ((withWord 0x6A5C).storeBytes 0xFFF [1, 2]).mem.length = 4 := by decide
/-- `StoredByteReadsBackAndNothingElse`: one address in two spellings, and two addresses. -/
theorem witness_two_addresses :
    4097 % 4096 = 1 % 4096 ∧ 4095 % 4096 ≠ 4096 % 4096 := by decide
/-- `PlacedWordIsTheWordFetched`: the addresses around the placed word. -/
theorem witness_outside_the_placed_word :
    wrapAddr 0x202 ≠ State.reset.pc.toNat ∧ wrapAddr 0x202 ≠ wrapAddr (State.reset.pc.toNat + 1) ∧
      wrapAddr 0x1FF ≠ State.reset.pc.toNat := by decide
/-- `KeyActionsChangeOneKey`: the last code and the first that is none, each with its outcome. -/
theorem witness_key_codes :
    nextGives (hostStep (.keyPress 15) State.reset) (fun t => t.key 15 && !t.key 14) = true ∧
      refusesAs (hostStep (.keyRelease 16) State.reset) (.keyCodeOutOfRange 16) = true := by decide
/-- `LoadWritesTheImageBeforeTheFirstTick`: the last offset, the first past it, and a LOAD after the first tick. -/
theorem witness_loads :
    nextGives (hostStep (.load 3583 7) State.reset) (fun t => t.readByte 0xFFF == 7) = true ∧
      refusesAs (hostStep (.load 3584 7) State.reset) (.loadOffsetOutOfRange 3584) = true ∧
      refusesAs (hostStep (.load 0 7) haltedState) .loadAfterFirstTick = true := by decide
/-- `LoadWritesTheImageBeforeTheFirstTick`: canonical memories before and after the first tick. -/
theorem witness_load_canonical :
    MemoryCanonical State.reset ∧ State.reset.started = false ∧ MemoryCanonical haltedState ∧
      haltedState.started = true := by decide
/-- `EveryTickKeepsTheInvariants`: a state with the invariants that a tick takes to a next state. -/
theorem witness_tick_from_the_invariants :
    MachineInv (withWord 0x2456) ∧ tickGives (withWord 0x2456) (fun t => t.sp == 1) = true := by decide
/-- `EveryHostActionKeepsTheInvariants`: an action other than TICK. -/
theorem witness_host_action_from_the_invariants :
    HostAction.keyPress 3 ≠ .tick ∧ MachineInv waitingState ∧
      nextGives (hostStep (.keyPress 3) waitingState) (fun t => t.key 3) = true := by decide
/-- `TickRunsTheDecodedInstruction`, `UnsupportedWordIsReportedAndSkipped`: RUNNING, with a supported word and without. -/
theorem witness_running :
    (withWord 0x6A5C).mode = .running ∧ decodeWord (withWord 0x6A5C).fetchWord = some (.ldByte 0xA 0x5C) ∧
      (withWord 0x0000).mode = .running ∧ decodeWord (withWord 0x0000).fetchWord = none := by decide
/-- `KeyWaitPollTakesTheLowestKey`: KEY_WAIT with the last key down and no other, and with none. -/
theorem witness_waiting :
    waitingState.mode = .keyWait ∧ (waitingState.setKey 15 true).key 15 = true ∧
      (∀ j < 15, (waitingState.setKey 15 true).key j = false) ∧ (∀ k, waitingState.key k = false) := by decide
/-- `HaltedTickChangesNothing`: a halted core with the invariants. -/
theorem witness_halted :
    MachineInv haltedState ∧ haltedState.mode = .halted := by decide
/-- `TimersCountDownOncePerTick`: a tick that does not end in HALTED, with DT at 1 and at 0. -/
theorem witness_timers :
    ({ withWord 0x6A5C with dt := 1 } : State).mode ≠ .halted ∧
      tickGives { withWord 0x6A5C with dt := 1 } (fun t => t.mode != .halted && t.dt == 0 && t.st == 0) = true := by decide
/-- `ModeChangesOnlyAsTheRulesSay`: a tick for each transition. -/
theorem witness_mode_changes :
    tickGives (withWord 0xF50A) (fun t => t.mode == .keyWait) = true ∧
      tickGives { withWord 0x2456 with sp := 16 } (fun t => t.mode == .halted) = true ∧
      tickGives (withWord 0x00EE) (fun t => t.mode == .halted) = true ∧
      tickGives (waitingState.setKey 3 true) (fun t => t.mode == .running) = true ∧
      tickGives haltedState (fun t => t.mode == .halted) = true := by decide
/-- `OutputsNameTheTicksThatRaiseThem`: a tick that raises FB_CHANGED, one that reports, one that does neither. -/
theorem witness_outputs :
    tickGives (withWord 0xD010) (fun t => t.fbChanged && t.report == none) = true ∧
      tickGives (withWord 0) (fun t => !t.fbChanged && t.report != none) = true ∧
      tickGives (withWord 0x6A5C) (fun t => !t.fbChanged && t.report == none) = true := by decide
/-- `OnlyClearAndDrawWriteTheDisplay`, `OnlyTheTwoStoresWriteMemory`, `OnlyCallAndReturnWriteTheStack`,
`OnlyFourInstructionsWriteTheIndex`, `NoTickChangesAKey`: a tick of an instruction that is none of those. -/
theorem witness_other_writes :
    (withWord 0x6A5C).current = some (.ldByte 0xA 0x5C) ∧ (Instr.ldByte 0xA 0x5C).writesDisplay = false ∧
      (Instr.ldByte 0xA 0x5C).storesToMemory = false ∧ (Instr.ldByte 0xA 0x5C).usesStack = false ∧
      (Instr.ldByte 0xA 0x5C).writesIndex = false ∧ tickGives (withWord 0x6A5C) (fun _ => true) = true := by decide
/-- `OnlyTheListedInstructionsWriteVF`: a register instruction with another destination. -/
theorem witness_no_vf :
    nextGives (exec (.addByte 2 1) State.reset) (fun t => t.reg 2 == 1) = true ∧
      (Instr.addByte 2 1).writesVF = false := by decide
/-- `PcHasTheFourOutcomes`: a skip at the end of memory, the call with the last room on the stack, the call with none, and
`Fx0A` with no key down. -/
theorem witness_pc_outcomes :
    nextGives (exec (.seByte 0 0) { State.reset with pc := 0xFFC }) (fun t => t.pc == 0) = true ∧
      ({ State.reset with sp := 15 } : State).pcTarget (.call 0x456) = some 0x456 ∧
      ({ State.reset with sp := 16 } : State).pcTarget (.call 0x456) = none ∧
      nextGives (exec (.call 0x456) { State.reset with sp := 16 }) (fun t => t.pc == 0x200 && t.mode == .halted) = true ∧
      nextGives (exec (.ldVxK 5) State.reset) (fun t => t.mode == .keyWait) = true := by decide
/-- `RandomSourceReachesOnlyCxnn`, `SoundTimerIsReadByNoInstruction`: a tick that draws no random byte. -/
theorem witness_no_draw :
    (withWord 0x6A5C).current = some (.ldByte 0xA 0x5C) ∧
      tickGives (withWord 0x6A5C) (fun t => t.rndIn == []) = true := by decide
/-- `CallPushesItsOwnAddress`, `ReturnGoesPastTheCall`, `StackErrorsHaltTheCore`: the last call with room, the first return,
and the two errors. -/
theorem witness_stack_bounds :
    ({ State.reset with sp := 15 } : State).sp ≠ 16 ∧ ({ State.reset with sp := 1 } : State).sp ≠ 0 ∧
      ({ State.reset with sp := 16 } : State).sp = 16 ∧ State.reset.sp = 0 := by decide
/-- `ReturnUndoesCall`: the call with the last room on the stack, and a subroutine that changes a register. -/
theorem witness_call_then_return :
    nextGives (exec (.call 0x456) { State.reset with sp := 15 }) (fun t => t.sp == 16 &&
      t.stackEntry 15 == 0x200) = true := by decide
/-- `FatalTickKeepsTheTimers`: a tick of a running core that ends in HALTED with a timer running. -/
theorem witness_fatal_tick :
    ({ withWord 0x00EE with dt := 2 } : State).mode = .running ∧
      tickGives { withWord 0x00EE with dt := 2 } (fun t => t.mode == .halted) = true := by decide
/-- `FatalTickKeepsTheTimers`: host actions other than RESET on a halted core. -/
theorem witness_actions_while_halted :
    HostAction.tick ≠ .reset ∧ haltedState.mode = .halted ∧ tickGives haltedState (fun t => t.mode == .halted) = true ∧
      nextGives (hostStep (.keyPress 3) haltedState) (fun t => t.mode == .halted) = true ∧
      nextGives (hostStep .reset haltedState) (fun t => t.mode == .running) = true := by decide
/-- The flag statements: a destination that is not VF, and a third register. -/
theorem witness_not_the_flag_register :
    (0 : Nibble) ≠ vF ∧ (1 : Nibble) ≠ 0 ∧ (1 : Nibble) ≠ vF := by decide
/-- `RandomByteIsMasked`: a byte on the RND input. -/
theorem witness_random_input :
    ({ State.reset with rndIn := [0xB7] } : State).rndIn = 0xB7 :: [] := by decide
/-- `BlockLoadReadsBackTheBlockStore`: a store of all registers at the end of memory. -/
theorem witness_stored_block :
    MemoryCanonical { State.reset.setReg 15 7 with i := 0xFF8 } ∧
      nextGives (exec (.storeRegs 0xF) { State.reset.setReg 15 7 with i := 0xFF8 }) (fun t => t.readByte 7 == 7) = true := by
      decide
/-- `DecimalStoreWritesThreeDigits`, `BlockStoreWritesTheRegisters`: an address outside the stored bytes, where they wrap. -/
theorem witness_outside_the_digits :
    ∀ k < 3, wrapAddr 1 ≠ ({ State.reset with i := 0xFFE } : State).indexAddr k := by decide
/-- `BlitXorsEachCellAndDetectsCollision`, `DrawingTwiceRestoresTheDisplay`: a sprite of 15 rows. -/
theorem witness_tallest_sprite :
    (List.replicate 15 (0xFF : Byte)).length ≤ 15 := by decide
/-- `DrawPutsTheSpriteAtTheOrigin`: n = 0 (vector D2). -/
theorem witness_draw_of_no_row :
    tickGives ((withWord 0xD010).setReg 0xF 1) (fun t => t.reg 0xF == 0 && cellsSet t.fb == []) = true := by decide
/-- `AnyPressedIsTheLowestKey`, `KeyWaitInstructionStoresOrWaits`: two keys down, and none. -/
theorem witness_lowest_key :
    ((State.reset.setKey 2 true).setKey 9 true).anyPressed = some 2 ∧
      ((State.reset.setKey 2 true).setKey 9 true).key 2 = true ∧
      (∀ j < 2, ((State.reset.setKey 2 true).setKey 9 true).key j = false) ∧ ∀ k, State.reset.key k = false := by decide
/-- `KeySkipsTestTheKey`: the last value that is a key, and the first that is none. -/
theorem witness_key_values :
    ((State.reset.setReg 1 15).reg 1).toNat < 16 ∧ 16 ≤ ((State.reset.setReg 1 16).reg 1).toNat := by decide
/-- `TimerInstructionsMoveOneByte`: the ticks that run the three instructions. -/
theorem witness_timer_ticks :
    (withWord 0xF307).current = some (.ldVxDt 3) ∧ (withWord 0xF515).current = some (.ldDtVx 5) ∧
      (withWord 0xF518).current = some (.ldStVx 5) := by decide
/-- `FontRomIsFixed`, `ResetGivesEveryElementItsValue`, `ResetMeetsTheInvariants`: a machine with another FONT_ROM, the first
and last byte of its font and the bytes around it, after RESET. -/
theorem witness_other_font :
    nextGives (hostStep .reset (otherFont.setReg 1 5)) (fun t => t.reg 1 == 0 && t.readByte 0x050 == 0xAA &&
      t.readByte 0x09F == 0xAA && t.readByte 0x04F == 0 && t.readByte 0x0A0 == 0) = true := by decide
/-- `FontRomIsFixed`: a store over the font changes memory and leaves FONT_ROM, so memory stays canonical and RESET loads the
font again. -/
theorem witness_font_byte_written :
    nextGives (exec (.storeRegs 0) { otherFont with i := 0x050 }) (fun t => t.readByte 0x050 == 0 &&
      t.fontRom == otherFont.fontRom && t.mem == [(0x050, 0)]) = true := by decide
/-- `RandomInputQueuesOneByte`: a byte goes behind one that waits. -/
theorem witness_byte_on_rnd :
    nextGives (hostStep (.rnd 0x11) { State.reset with rndIn := [0xB7] }) (fun t => t.rndIn == [0xB7, 0x11]) = true := by decide
/-- `ReturnUndoesCall`: a subroutine that changes a register keeps the stack. -/
theorem witness_subroutine_keeps_the_stack (t : State) : Part.stack.Same t (t.setReg 3 9) := ⟨rfl, fun _ => rfl⟩

end Sys2Proof.Tests
end

section
/-! PROOFS of the family of spec/20_memory.md: addresses modulo 4096. -/

namespace Sys2Proof.Machine

namespace State

/-- A store starts at an address modulo 4096 (R51). -/
theorem storeBytes_congr (s : State) {a b : Nat} (h : wrapAddr a = wrapAddr b) (bs : List Byte) :
    s.storeBytes a bs = s.storeBytes b bs := by
  rw [storeBytes, storeBytes, Memory.writeBytes_congr _ h]

@[simp] theorem storeBytes_wrapAddr (s : State) (a : Nat) (bs : List Byte) :
    s.storeBytes (wrapAddr a) bs = s.storeBytes a bs :=
  s.storeBytes_congr (wrapAddr_wrapAddr a) bs

/-- The fetch reads the high byte at pc and the low byte after it (R52). -/
theorem fetchWord_eq_append (s : State) :
    s.fetchWord = s.readByte s.pc.toNat ++ s.readByte (s.pc.toNat + 1) := rfl

/-- At the last address the low byte of the fetch is the byte at 0x000 (R51). -/
theorem fetchWord_of_pc_last (s : State) (h : s.pc = 0xFFF) :
    s.fetchWord = s.readByte 0xFFF ++ s.readByte 0x000 := by
  have hpc : s.pc.toNat = 0xFFF := by rw [h]; rfl
  have hlow : s.readByte (0xFFF + 1) = s.readByte 0x000 := s.readByte_congr rfl
  rw [fetchWord_eq_append, hpc, hlow]

end State

/-- Settles O5: a read, a store and an I-relative address each depend on the address modulo 4096 only, and the fetch at
0xFFF reads its low byte at 0x1000, which is 0x000. -/
theorem everyAddressWrapsModulo4096 : Obligations.EveryAddressWrapsModulo4096 := fun s a bs =>
  ⟨(s.readByte_wrapAddr a).symm, (s.storeBytes_wrapAddr a bs).symm, wrapAddr_lt _, rfl, s.fetchWord_of_pc_last⟩

end Sys2Proof.Machine
end

section
/-! PROOFS of the family of spec/41_flow.md: conditional skips. -/

namespace Sys2Proof.Machine

/-- A skip moves pc by 4 when its condition holds and by 2 when it does not (R95). -/
theorem PcPlus_skipIf {c : Bool} {P : Prop} [Decidable P] (hc : c = true ↔ P) (s : State) :
    PcPlus (if P then 4 else 2) s (s.skipIf c) := by
  have hmove : (if P then 4 else 2) = if c then 4 else 2 := if_congr hc.symm rfl rfl
  rw [hmove]
  exact PcPlus_setPc _ s s

theorem SameBut_skipIf (s : State) (c : Bool) : SameBut [] s (s.skipIf c) := SameBut_setPc s _

/-- An instruction whose whole effect is a skip: where pc goes, and that nothing else changes (R95, R113). -/
theorem exec_of_afterExec_eq_skipIf {i : Instr} {s : State} {c : Bool} {P : Prop} [Decidable P]
    (h : afterExec i s = s.skipIf c) (hc : c = true ↔ P) :
    ∃ t, exec i s = .next t ∧ PcPlus (if P then 4 else 2) s t ∧ SameBut [] s t :=
  ⟨s.skipIf c, h ▸ exec_eq_next i s, PcPlus_skipIf hc s, SameBut_skipIf s c⟩

/-- Settles O37: both instructions are skips, on equality with the immediate and on difference. -/
theorem byteSkipsCompareTheRegister : Obligations.ByteSkipsCompareTheRegister := fun x nn s =>
  ⟨exec_of_afterExec_eq_skipIf (afterExec_seByte s x nn) beq_iff_eq,
    exec_of_afterExec_eq_skipIf (afterExec_sneByte s x nn) bne_iff_ne⟩

/-- Settles O38: both instructions are skips, on equality of the two registers and on difference. -/
theorem registerSkipsCompareTheRegisters : Obligations.RegisterSkipsCompareTheRegisters := fun x y s =>
  ⟨exec_of_afterExec_eq_skipIf (afterExec_seReg s x y) beq_iff_eq,
    exec_of_afterExec_eq_skipIf (afterExec_sneReg s x y) bne_iff_ne⟩

end Sys2Proof.Machine
end

section
/-! PROOFS of the family of spec/42_alu.md: loads, addition and subtraction. -/

namespace Sys2Proof.Machine

/-! ### A register write, and the two ways an instruction writes its result -/

theorem SameBut_setReg (s : State) (x : Nibble) (b : Byte) : SameBut [.regs] s (s.setReg x b) := fun p hp => by
  cases p with
  | regs => exact absurd (List.mem_singleton_self _) hp
  | _ => simp [Part.Same]

theorem SameButReg_result (s : State) (x : Nibble) (b : Byte) : SameButReg x [] s (s.result x b) := by
  constructor
  · intro r hr
    simp [hr]
  · exact (SameBut_setReg s x b).trans ((SameBut_setPc _ _).mono (List.nil_subset _))

theorem SameBut_flaggedResult (s : State) (x : Nibble) (b f : Byte) : SameBut [.regs] s (s.flaggedResult x b f) :=
  ((SameBut_setReg s x b).trans (SameBut_setReg _ vF f)).trans ((SameBut_setPc _ _).mono (List.nil_subset _))

/-- The result stays in its register unless that is VF, which the later write of the flag overwrites (R133). -/
theorem reg_flaggedResult_of_ne_vF (s : State) {x : Nibble} (hx : x ≠ vF) (b f : Byte) :
    (s.flaggedResult x b f).reg x = b := by
  simp [hx]

theorem reg_flaggedResult_vF (s : State) (x : Nibble) (b f : Byte) : (s.flaggedResult x b f).reg vF = f := by
  simp

theorem reg_flaggedResult_other (s : State) {x r : Nibble} (hx : r ≠ x) (hvF : r ≠ vF) (b f : Byte) :
    (s.flaggedResult x b f).reg r = s.reg r := by
  simp [hx, hvF]

/-- An instruction whose whole effect is to write one register (R120 to R125). -/
theorem exec_of_afterExec_eq_result {i : Instr} {s : State} {x : Nibble} {b : Byte} (h : afterExec i s = s.result x b) :
    ∃ t, exec i s = .next t ∧ t.reg x = b ∧ PcPlus 2 s t ∧ SameButReg x [] s t :=
  ⟨s.result x b, h ▸ exec_eq_next i s, by simp, PcPlus_setPc 2 s _, SameButReg_result s x b⟩

/-- An instruction whose whole effect is to write a result and then a flag (R126 to R130, R133). -/
theorem exec_of_afterExec_eq_flaggedResult {i : Instr} {s : State} {x : Nibble} {b f : Byte}
    (h : afterExec i s = s.flaggedResult x b f) :
    ∃ t, exec i s = .next t ∧ (x ≠ vF → t.reg x = b) ∧ t.reg vF = f ∧
      (∀ r, r ≠ x → r ≠ vF → t.reg r = s.reg r) ∧ PcPlus 2 s t ∧ SameBut [.regs] s t :=
  ⟨s.flaggedResult x b f, h ▸ exec_eq_next i s, fun hx => reg_flaggedResult_of_ne_vF s hx b f,
    reg_flaggedResult_vF s x b f, fun _ hx hvF => reg_flaggedResult_other s hx hvF b f, PcPlus_setPc 2 s _,
    SameBut_flaggedResult s x b f⟩

/-! ### The arithmetic of results and flags -/

theorem flagByte_decide (P : Prop) [Decidable P] : flagByte (decide P) = if P then 1 else 0 := by
  simp only [flagByte_eq_ite, decide_eq_true_eq]

theorem carryFlag_eq (a b : Byte) : carryFlag a b = if a.toNat + b.toNat > 255 then 1 else 0 := flagByte_decide _

theorem noBorrowFlag_eq (a b : Byte) : noBorrowFlag a b = if a.toNat ≥ b.toNat then 1 else 0 := flagByte_decide _

/-- The difference of two bytes is the difference of the integers modulo 256 (R127, R129). -/
theorem toNat_sub_eq_emod (a b : Byte) : ((a - b).toNat : Int) = (a.toNat - b.toNat : Int) % 256 := by
  have hb : b.toNat < 256 := b.isLt
  rw [BitVec.toNat_sub]
  omega

/-- An instruction that writes `a - b` and then the no-borrow flag of `a - b`, whichever operands a and b are. -/
theorem exec_of_afterExec_eq_difference {i : Instr} {s : State} {x : Nibble} {a b : Byte}
    (h : afterExec i s = s.flaggedResult x (a - b) (noBorrowFlag a b)) :
    ∃ t, exec i s = .next t ∧ (x ≠ vF → ((t.reg x).toNat : Int) = (a.toNat - b.toNat : Int) % 256) ∧
      t.reg vF = (if a.toNat ≥ b.toNat then 1 else 0) ∧
      (∀ r, r ≠ x → r ≠ vF → t.reg r = s.reg r) ∧ PcPlus 2 s t ∧ SameBut [.regs] s t := by
  obtain ⟨t, hexec, hresult, hflag, hframe⟩ := exec_of_afterExec_eq_flaggedResult h
  have hdifference (hx : x ≠ vF) : ((t.reg x).toNat : Int) = (a.toNat - b.toNat : Int) % 256 := by
    rw [hresult hx, toNat_sub_eq_emod]
  exact ⟨t, hexec, hdifference, hflag.trans (noBorrowFlag_eq a b), hframe⟩

/-! ### The obligations -/

/-- Settles O39: both instructions write one register, the immediate and the other register's value. -/
theorem loadsWriteOneRegister : Obligations.LoadsWriteOneRegister := fun x y nn s =>
  ⟨exec_of_afterExec_eq_result (afterExec_ldByte s x nn), exec_of_afterExec_eq_result (afterExec_ldReg s x y)⟩

/-- Settles O41: the instruction writes the sum and then the carry of the operands it read. -/
theorem addWritesSumThenCarry : Obligations.AddWritesSumThenCarry := by
  intro x y s
  obtain ⟨t, hexec, hresult, hflag, hframe⟩ := exec_of_afterExec_eq_flaggedResult (afterExec_addReg s x y)
  have hsum (hx : x ≠ vF) : (t.reg x).toNat = ((s.reg x).toNat + (s.reg y).toNat) % 256 := by
    rw [hresult hx, BitVec.toNat_add]
  exact ⟨t, hexec, hsum, hflag.trans (carryFlag_eq _ _), hframe⟩

/-- Settles O42: both instructions write a difference and then its no-borrow flag, with the operands exchanged. -/
theorem subtractionsWriteDifferenceThenNoBorrow : Obligations.SubtractionsWriteDifferenceThenNoBorrow := fun x y s =>
  ⟨exec_of_afterExec_eq_difference (afterExec_subReg s x y), exec_of_afterExec_eq_difference (afterExec_subnReg s x y)⟩

end Sys2Proof.Machine
end

section
/-! PROOFS of the family of spec/43_index_memory.md: loads of the index and the decimal store. -/

namespace Sys2Proof.Machine

/-! ### Instructions that write the index -/

theorem SameBut_setIndex (s : State) (n : Nat) : SameBut [.index] s (s.setIndex n) := fun p hp => by
  cases p with
  | index => exact absurd (List.mem_singleton_self _) hp
  | _ => simp [Part.Same]

/-- An instruction whose whole effect is to write I (R140 to R142): I is reduced modulo 4096 (R23). -/
theorem exec_of_afterExec_eq_setIndex {i : Instr} {s : State} {n : Nat} (h : afterExec i s = (s.setIndex n).advance 2) :
    ∃ t, exec i s = .next t ∧ t.i.toNat = n % 4096 ∧ PcPlus 2 s t ∧ SameBut [.index] s t :=
  ⟨(s.setIndex n).advance 2, h ▸ exec_eq_next i s, s.toNat_setIndex_i n, PcPlus_setPc 2 s _,
    (SameBut_setIndex s n).trans ((SameBut_setPc _ _).mono (List.nil_subset _))⟩

/-- The reduction does not show in a value below 4096. -/
theorem exec_of_afterExec_eq_setIndex_of_lt {i : Instr} {s : State} {n : Nat}
    (h : afterExec i s = (s.setIndex n).advance 2) (hn : n < 4096) :
    ∃ t, exec i s = .next t ∧ t.i.toNat = n ∧ PcPlus 2 s t ∧ SameBut [.index] s t := by
  simpa only [Nat.mod_eq_of_lt hn] using exec_of_afterExec_eq_setIndex h

/-- The formula uses the whole byte and still stays in memory: its last value is 0x54B (R142). -/
theorem glyphAddr_lt (d : Byte) : glyphAddr d < 4096 := by
  have hd : d.toNat < 256 := d.isLt
  simp only [glyphAddr, fontBase]
  omega

/-! ### Instructions that store at the index -/

theorem SameBut_storeBytes (s : State) (a : Nat) (bs : List Byte) : SameBut [.memory] s (s.storeBytes a bs) := fun p hp => by
  cases p with
  | memory => exact absurd (List.mem_singleton_self _) hp
  | _ => simp [Part.Same]

/-- A block stored at I reads back at the I-relative addresses (R146). -/
theorem readByte_storeBytes_indexAddr {s : State} (hm : MemoryCanonical s) {bs : List Byte} (hlen : bs.length ≤ 4096) {k : Nat}
    (hk : k < bs.length) : (s.storeBytes (s.indexAddr 0) bs).readByte (s.indexAddr k) = bs[k] := by
  rw [← State.readByte_indexAddr_add, State.readByte_storeBytes_get hm _ bs hlen k hk]

/-- A block stored at I leaves every byte that is at none of its I-relative addresses. -/
theorem readByte_storeBytes_indexAddr_of_ne {s : State} (hm : MemoryCanonical s) {bs : List Byte} {a : Nat}
    (ha : ∀ k < bs.length, wrapAddr a ≠ s.indexAddr k) : (s.storeBytes (s.indexAddr 0) bs).readByte a = s.readByte a :=
  State.readByte_storeBytes_of_ne hm _ bs a fun k hk => s.indexAddr_eq k ▸ ha k hk

/-- An instruction whose whole effect is to store a block at I (R143, R144). -/
theorem exec_of_afterExec_eq_storeBytes {i : Instr} {s : State} {bs : List Byte}
    (h : afterExec i s = (s.storeBytes (s.indexAddr 0) bs).advance 2) (hm : MemoryCanonical s) (hlen : bs.length ≤ 4096) :
    ∃ t, exec i s = .next t ∧ (∀ (k : Nat) (hk : k < bs.length), t.readByte (s.indexAddr k) = bs[k]) ∧
      (∀ a, (∀ k < bs.length, wrapAddr a ≠ s.indexAddr k) → t.readByte a = s.readByte a) ∧
      PcPlus 2 s t ∧ SameBut [.memory] s t :=
  ⟨(s.storeBytes (s.indexAddr 0) bs).advance 2, h ▸ exec_eq_next i s,
    fun _ hk => readByte_storeBytes_indexAddr hm hlen hk, fun _ ha => readByte_storeBytes_indexAddr_of_ne hm ha,
    PcPlus_setPc 2 s _, (SameBut_storeBytes s _ bs).trans ((SameBut_setPc _ _).mono (List.nil_subset _))⟩

@[simp] theorem length_decimalDigits (b : Byte) : (decimalDigits b).length = 3 := rfl

/-- Each of the three digits fits a byte, so the bytes stored are the digits themselves (R143). -/
theorem toNat_decimalDigits (b : Byte) :
    (decimalDigits b)[0].toNat = b.toNat / 100 ∧ (decimalDigits b)[1].toNat = b.toNat / 10 % 10 ∧
      (decimalDigits b)[2].toNat = b.toNat % 10 := by
  have hb : b.toNat < 256 := b.isLt
  have hfits {n : Nat} (hn : n < 256) : (BitVec.ofNat 8 n).toNat = n :=
    (BitVec.toNat_ofNat n 8).trans (Nat.mod_eq_of_lt hn)
  exact ⟨hfits (by omega), hfits (by omega), hfits (by omega)⟩

/-! ### The obligations -/

/-- Settles O45: both instructions write I, with values below 4096. -/
theorem indexLoadsSetTheIndex : Obligations.IndexLoadsSetTheIndex := fun nnn x s =>
  ⟨exec_of_afterExec_eq_setIndex_of_lt (afterExec_ldI s nnn) nnn.isLt,
    exec_of_afterExec_eq_setIndex_of_lt (afterExec_ldF s x) (glyphAddr_lt _)⟩

/-- Settles O47: the instruction stores the block of the three digits at I. -/
theorem decimalStoreWritesThreeDigits : Obligations.DecimalStoreWritesThreeDigits := by
  intro x s hm
  obtain ⟨t, hexec, hstored, hframe⟩ := exec_of_afterExec_eq_storeBytes (afterExec_ldB s x) hm (by simp)
  obtain ⟨hhundreds, htens, hones⟩ := toNat_decimalDigits (s.reg x)
  refine ⟨t, hexec, ?_, ?_, ?_, hframe⟩
  · rw [hstored 0 (by simp), hhundreds]
  · rw [hstored 1 (by simp), htens]
  · rw [hstored 2 (by simp), hones]

end Sys2Proof.Machine
end

section
/-! PROOFS of the family of spec/44_display.md: the blit unit. -/

namespace Sys2Proof.Machine

/-! ### What a drawing does to a canvas -/

/-- Canvas d is canvas c with the cells of `bits` drawn on it: they are XORed into the buffer (R155), and a collision is recorded
where one of them falls on a cell that was set (R156). -/
def Canvas.Drawn (bits : Fin 64 → Fin 32 → Bool) (c d : Canvas) : Prop :=
  (∀ cx cy, Display.cell d.fb cx cy = (Display.cell c.fb cx cy ^^ bits cx cy)) ∧
  (d.col = true ↔ c.col = true ∨ ∃ cx cy, bits cx cy = true ∧ Display.cell c.fb cx cy = true)

/-- No cell is drawn by both. -/
def CellsDisjoint (f g : Fin 64 → Fin 32 → Bool) : Prop := ∀ cx cy, f cx cy = true → ¬ g cx cy = true

namespace Canvas.Drawn

variable {f g : Fin 64 → Fin 32 → Bool} {c d e : Canvas}

theorem nothing (c : Canvas) : Drawn (fun _ _ => false) c c := by simp [Drawn]

/-- On the cells of a second drawing, the first one has changed nothing. -/
theorem cell_of_disjoint (h : Drawn f c d) (hfg : CellsDisjoint f g) {cx : Fin 64} {cy : Fin 32} (hg : g cx cy = true) :
    Display.cell d.fb cx cy = Display.cell c.fb cx cy := by
  have hf : f cx cy = false := Bool.eq_false_iff.2 fun hf => hfg cx cy hf hg
  rw [h.1, hf, Bool.xor_false]

/-- Two drawings that share no cell are one drawing. -/
theorem trans (h : Drawn f c d) (h' : Drawn g d e) (hfg : CellsDisjoint f g) : Drawn (fun cx cy => f cx cy || g cx cy) c e := by
  constructor
  · intro cx cy
    have hor : (f cx cy ^^ g cx cy) = (f cx cy || g cx cy) := by
      cases hf : f cx cy with
      | false => rw [Bool.false_xor, Bool.false_or]
      | true => rw [Bool.eq_false_iff.2 (hfg cx cy hf), Bool.xor_false, Bool.or_false]
    rw [h'.1, h.1, Bool.xor_assoc, hor]
  · have hsecond (cx : Fin 64) (cy : Fin 32) : g cx cy = true ∧ Display.cell d.fb cx cy = true ↔
        g cx cy = true ∧ Display.cell c.fb cx cy = true :=
      and_congr_right fun hg => by rw [h.cell_of_disjoint hfg hg]
    simp only [h'.2, h.2, hsecond, Bool.or_eq_true, or_and_right, exists_or, or_assoc]

/-- A sequence of drawings of which no two share a cell is one drawing. -/
theorem foldl {α : Type} {op : Canvas → α → Canvas} {bits : α → Fin 64 → Fin 32 → Bool}
    (hop : ∀ a c, Drawn (bits a) c (op c a)) (as : List α) (hdisj : as.Pairwise fun a b => CellsDisjoint (bits a) (bits b))
    (c : Canvas) : Drawn (fun cx cy => as.any fun a => bits a cx cy) c (as.foldl op c) := by
  induction as generalizing c with
  | nil => exact nothing c
  | cons a as ih =>
    obtain ⟨hhead, htail⟩ := List.pairwise_cons.1 hdisj
    have hrest : CellsDisjoint (bits a) fun cx cy => as.any fun b => bits b cx cy := by
      intro cx cy ha hany
      obtain ⟨b, hb, hbit⟩ := List.any_eq_true.1 hany
      exact hhead b hb cx cy ha hbit
    exact (hop a c).trans (ih htail (op c a)) hrest

end Canvas.Drawn

/-! ### One bit, one row, the sprite -/

/-- The cell that bit b of row r falls on, if that bit is set (R155). -/
def spriteBitOn (x0 y0 : Byte) (r : Nat) (row : Byte) (b : Nat) (cx : Fin 64) (cy : Fin 32) : Bool :=
  decide (cx.val = (x0.toNat + b) % 64) && decide (cy.val = (y0.toNat + r) % 32) && spriteBit row b

/-- The cells that the set bits of row r fall on (R155). -/
def spriteRowOn (x0 y0 : Byte) (r : Nat) (row : Byte) (cx : Fin 64) (cy : Fin 32) : Bool :=
  (List.range 8).any fun b => spriteBitOn x0 y0 r row b cx cy

theorem spriteBitAt_eq_any_spriteRowOn (x0 y0 : Byte) (rows : List Byte) (cx : Fin 64) (cy : Fin 32) :
    spriteBitAt x0 y0 rows cx cy = (List.range rows.length).any fun r => spriteRowOn x0 y0 r (rows.getD r 0) cx cy := rfl

theorem spriteBitOn_eq_true {x0 y0 : Byte} {r : Nat} {row : Byte} {b : Nat} {cx : Fin 64} {cy : Fin 32} :
    spriteBitOn x0 y0 r row b cx cy = true ↔
      cx.val = (x0.toNat + b) % 64 ∧ cy.val = (y0.toNat + r) % 32 ∧ spriteBit row b = true := by
  simp [spriteBitOn, and_assoc]

/-- A row is drawn on one row of cells. -/
theorem row_of_spriteRowOn {x0 y0 : Byte} {r : Nat} {row : Byte} {cx : Fin 64} {cy : Fin 32}
    (h : spriteRowOn x0 y0 r row cx cy = true) : cy.val = (y0.toNat + r) % 32 := by
  obtain ⟨b, _, hb⟩ := List.any_eq_true.1 h
  exact (spriteBitOn_eq_true.1 hb).2.1

/-- Two bits of a row, being less than 64 apart, fall on different columns. -/
theorem spriteBitOn_disjoint (x0 y0 : Byte) (r : Nat) (row : Byte) {a b : Nat} (hab : a < b) (hb : b < 64) :
    CellsDisjoint (spriteBitOn x0 y0 r row a) (spriteBitOn x0 y0 r row b) := by
  intro cx cy ha hb'
  have hcola : cx.val = (x0.toNat + a) % 64 := (spriteBitOn_eq_true.1 ha).1
  have hcolb : cx.val = (x0.toNat + b) % 64 := (spriteBitOn_eq_true.1 hb').1
  omega

/-- Two rows of a sprite, being less than 32 apart, fall on different rows of cells. -/
theorem spriteRowOn_disjoint (x0 y0 : Byte) (row row' : Byte) {r q : Nat} (hrq : r < q) (hq : q < 32) :
    CellsDisjoint (spriteRowOn x0 y0 r row) (spriteRowOn x0 y0 q row') := by
  intro cx cy hr hq'
  have hrowr : cy.val = (y0.toNat + r) % 32 := row_of_spriteRowOn hr
  have hrowq : cy.val = (y0.toNat + q) % 32 := row_of_spriteRowOn hq'
  omega

/-- A relation that holds of the numbers below n in order holds along `List.range n`. -/
theorem pairwise_range_of_lt {n : Nat} {R : Nat → Nat → Prop} (h : ∀ a b, a < b → b < n → R a b) : (List.range n).Pairwise R :=
  List.pairwise_lt_range.imp_of_mem fun _ hb hab => h _ _ hab (List.mem_range.1 hb)

theorem Canvas.plot_drawn (x0 y0 : Byte) (r : Nat) (row : Byte) (b : Nat) (c : Canvas) :
    Canvas.Drawn (spriteBitOn x0 y0 r row b) c
      (c.plot (Fin.ofNat 64 (x0.toNat + b)) (Fin.ofNat 32 (y0.toNat + r)) (spriteBit row b)) := by
  have hbit (cx : Fin 64) (cy : Fin 32) : spriteBitOn x0 y0 r row b cx cy =
      (spriteBit row b && decide (cx = Fin.ofNat 64 (x0.toNat + b) ∧ cy = Fin.ofNat 32 (y0.toNat + r))) := by
    simp [spriteBitOn, Fin.ext_iff, Bool.and_comm]
  constructor
  · intro cx cy
    rw [Canvas.cell_plot, hbit]
  · simp [hbit, and_assoc]

theorem Canvas.plotRow_drawn (x0 y0 : Byte) (r : Nat) (row : Byte) (c : Canvas) :
    Canvas.Drawn (spriteRowOn x0 y0 r row) c (Canvas.plotRow x0 y0 r row c) :=
  Canvas.Drawn.foldl (Canvas.plot_drawn x0 y0 r row) (List.range 8)
    (pairwise_range_of_lt fun _ _ hab hb => spriteBitOn_disjoint x0 y0 r row hab (by omega)) c

/-- The rows are drawn one after the other, by their numbers. -/
theorem Canvas.plotRows_eq_foldl (x0 y0 : Byte) (r : Nat) (rows : List Byte) (c : Canvas) :
    Canvas.plotRows x0 y0 r rows c =
      (List.range rows.length).foldl (fun c k => Canvas.plotRow x0 y0 (r + k) (rows.getD k 0) c) c := by
  induction rows generalizing r c with
  | nil => rfl
  | cons row rows ih =>
    rw [Canvas.plotRows, ih, List.length_cons, List.range_succ_eq_map, List.foldl_cons, List.foldl_map]
    simp [Nat.add_assoc, Nat.add_comm 1]

/-- A sprite of no more than 32 rows is drawn cell by cell, since no two of its bits fall on one cell. -/
theorem drawSprite_drawn (fb : Display) (x0 y0 : Byte) {rows : List Byte} (hlen : rows.length ≤ 32) :
    Canvas.Drawn (spriteBitAt x0 y0 rows) ⟨fb, false⟩ (drawSprite fb x0 y0 rows) := by
  have hrow (k : Nat) (c : Canvas) : Canvas.Drawn (spriteRowOn x0 y0 k (rows.getD k 0)) c
      (Canvas.plotRow x0 y0 (0 + k) (rows.getD k 0) c) := by
    rw [Nat.zero_add]
    exact Canvas.plotRow_drawn x0 y0 k _ c
  have hdisj := pairwise_range_of_lt fun r q hrq (hq : q < rows.length) =>
    spriteRowOn_disjoint x0 y0 (rows.getD r 0) (rows.getD q 0) hrq (by omega)
  rw [drawSprite, Canvas.plotRows_eq_foldl]
  exact Canvas.Drawn.foldl hrow _ hdisj _

/-- Settles O52: the bits of a sprite fall on distinct cells, so plotting them one by one is one XOR, and a plot that finds its
cell set is a cell that goes from 1 to 0. -/
theorem blitXorsEachCellAndDetectsCollision : Obligations.BlitXorsEachCellAndDetectsCollision := by
  intro fb x0 y0 rows hlen
  obtain ⟨hcell, hcol⟩ := drawSprite_drawn fb x0 y0 (rows := rows) (by omega)
  refine ⟨hcell, hcol.trans ?_⟩
  have hcleared (cx : Fin 64) (cy : Fin 32) : spriteBitAt x0 y0 rows cx cy = true ∧ Display.cell fb cx cy = true ↔
      Display.cell fb cx cy = true ∧ Display.cell (drawSprite fb x0 y0 rows).fb cx cy = false := by
    rw [hcell, and_comm]
    exact and_congr_right fun hset => by simp [hset]
  simp only [hcleared, Bool.false_eq_true, false_or]

end Sys2Proof.Machine
end

section
/-! PROOFS of the family of spec/45_keys_timers.md: the key lookup and the timer instructions. -/

namespace Sys2Proof.Machine

/-! ### The key lookup -/

/-- The lookup is the library's search over the key codes in rising order. -/
theorem State.anyPressed_eq_find? (s : State) : s.anyPressed = Fin.find? s.key := Fin.find?_eq_find?_finRange.symm

theorem State.anyPressed_eq_some_iff {s : State} {k : Fin 16} :
    s.anyPressed = some k ↔ s.key k = true ∧ ∀ j < k, s.key j = false := by
  rw [anyPressed_eq_find?, Fin.find?_eq_some_iff]

theorem State.anyPressed_eq_none_iff {s : State} : s.anyPressed = none ↔ ∀ k, s.key k = false := by
  rw [anyPressed_eq_find?, Fin.find?_eq_none_iff]

/-! ### A timer write, and an instruction that goes on at the next word -/

theorem SameBut_setDelay (s : State) (b : Byte) : SameBut [.delay] s (s.setDelay b) := fun p hp => by
  cases p with
  | delay => exact absurd (List.mem_singleton_self _) hp
  | _ => simp [Part.Same]

theorem SameBut_setSound (s : State) (b : Byte) : SameBut [.sound] s (s.setSound b) := fun p hp => by
  cases p with
  | sound => exact absurd (List.mem_singleton_self _) hp
  | _ => simp [Part.Same]

/-- An instruction that makes a change which leaves pc, and then moves pc on by one word: the frame is the change's own. -/
theorem exec_of_afterExec_eq_advance {i : Instr} {s u : State} {ps : List Part} (h : afterExec i s = u.advance 2)
    (hpc : u.pc = s.pc) (hu : SameBut ps s u) :
    exec i s = .next (u.advance 2) ∧ PcPlus 2 s (u.advance 2) ∧ SameBut ps s (u.advance 2) := by
  have hmove : PcPlus 2 s (u.advance 2) := by
    rw [State.advance, hpc]
    exact PcPlus_setPc 2 s u
  exact ⟨h ▸ exec_eq_next i s, hmove, hu.trans ((SameBut_setPc _ _).mono (List.nil_subset _))⟩

/-! ### The tick that runs an instruction -/

theorem State.current_eq_some_iff {s : State} {i : Instr} :
    s.current = some i ↔ s.mode = .running ∧ decodeWord s.fetchWord = some i := by
  rw [current, Option.ite_none_right_eq_some]

/-- A tick runs the current instruction on the opened state, and where that leaves MODE as it was, counts the timers down after
it (R91). -/
theorem step_of_current {s : State} {i : Instr} (hi : s.current = some i) (hkeeps : (afterExec i s.openTick).mode = s.mode) :
    step s = .next (afterExec i s.openTick).timerPhase := by
  obtain ⟨hmode, hdecode⟩ := State.current_eq_some_iff.1 hi
  have hword : afterWord s.fetchWord s.openTick = afterExec i s.openTick := by rw [afterWord, hdecode]
  have hnothalted : ¬ (afterExec i s.openTick).mode = .halted := by
    rw [hkeeps, hmode]
    decide
  rw [step_running hmode, hword, closeTick_next, if_neg hnothalted]

/-! ### The obligations -/

/-- Settles O55: the lookup is the first key down in the rising order of the codes. -/
theorem anyPressedIsTheLowestKey : Obligations.AnyPressedIsTheLowestKey := fun _ =>
  ⟨fun _ => State.anyPressed_eq_some_iff, State.anyPressed_eq_none_iff⟩

/-- Settles O57: each instruction is one write and a move of pc, and its tick is that with the countdown after it. -/
theorem timerInstructionsMoveOneByte : Obligations.TimerInstructionsMoveOneByte := by
  intro x s
  obtain ⟨hdelay, hdelayFrame⟩ :=
    exec_of_afterExec_eq_advance (afterExec_ldDtVx s x) (by simp) (SameBut_setDelay s (s.reg x))
  obtain ⟨hsound, hsoundFrame⟩ :=
    exec_of_afterExec_eq_advance (afterExec_ldStVx s x) (by simp) (SameBut_setSound s (s.reg x))
  refine ⟨exec_of_afterExec_eq_result (afterExec_ldVxDt s x), ⟨_, hdelay, by simp, hdelayFrame⟩,
    ⟨_, hsound, by simp, hsoundFrame⟩, fun hi => ?read, fun hi => ?writeDelay, fun hi => ?writeSound⟩
  case read => exact ⟨_, step_of_current hi (by simp), by simp, by simp [toNat_countDown]⟩
  case writeDelay => exact ⟨_, step_of_current hi (by simp), by simp [toNat_countDown]⟩
  case writeSound => exact ⟨_, step_of_current hi (by simp), by simp [State.stOut, toNat_countDown]⟩

end Sys2Proof.Machine
end

section
/-! PROOFS of the family of spec/30_encoding.md: decode, encode and the opcode map. -/

namespace Sys2Proof

/-! ### A word from its digits -/

section Digits

variable {op : Opcode} {a n : Nibble} {nn : Byte}

theorem wordNNN_of_digit (ha : opA op = a) : wordNNN a (opNNN op) = op := by
  rw [← ha, wordNNN_fields]

theorem wordXNN_of_digit (ha : opA op = a) : wordXNN a (opX op) (opNN op) = op := by
  rw [← ha, wordXNN_fields]

theorem wordXNN_of_digits (ha : opA op = a) (hnn : opNN op = nn) : wordXNN a (opX op) nn = op := by
  rw [← hnn, wordXNN_of_digit ha]

theorem wordXYN_of_digit (ha : opA op = a) : wordXYN a (opX op) (opY op) (opN op) = op := by
  rw [← ha, wordXYN_fields]

theorem wordXYN_of_digits (ha : opA op = a) (hn : opN op = n) : wordXYN a (opX op) (opY op) n = op := by
  rw [← hn, wordXYN_of_digit ha]

end Digits

/-- A field known as a number is known as a field. -/
theorem field_eq_of_toNat {w k : Nat} {f : BitVec w} (h : f.toNat = k) : f = BitVec.ofNat w k := by
  rw [← h, BitVec.ofNat_toNat, BitVec.setWidth_eq]

/-! ### Decode of an encoding -/

/-- The decoder reads back every field the encoder has placed, and the digits the encoder has placed select the row. -/
theorem decodeWord_encode (i : Instr) : decodeWord (encode i) = some i := by
  cases i with
  | cls | ret => rfl
  | jp | call | ldI | jpV0 => simp [encode, decodeWord]
  | seByte | sneByte | ldByte | addByte | rnd => simp [encode, decodeWord]
  | seReg | sneReg => simp [encode, decodeWord, decodeXY0]
  | ldReg | orReg | andReg | xorReg | addReg | subReg | shr | subnReg | shl => simp [encode, decodeWord, decode8]
  | drw => simp [encode, decodeWord]
  | skp | sknp => simp [encode, decodeWord, decodeE]
  | ldVxDt | ldVxK | ldDtVx | ldStVx | addI | ldF | ldB | storeRegs | loadRegs => simp [encode, decodeWord, decodeF]

theorem decodeBytes_bytesOfWord {op : Opcode} {i : Instr} (h : decodeWord op = some i) (rest : List Byte) :
    decodeBytes (bytesOfWord op ++ rest) = .ok (i, rest) := by
  simp [bytesOfWord, decodeBytes, h]

/-- Settles O2: the bytes of an encoding are the word again, and the decoder reads its row and fields back from it. -/
theorem decodeOfEncodeIsTheInstruction : Obligations.DecodeOfEncodeIsTheInstruction := fun i rest =>
  decodeBytes_bytesOfWord (decodeWord_encode i) rest

/-! ### Encode of a decoding, by row group (R76) -/

section Groups

variable {op : Opcode} {i : Instr}

theorem encode_of_decode0 (ha : opA op = 0x0) (h : decode0 op = some i) : encode i = op := by
  have hword (nnn : Addr) (hnnn : opNNN op = nnn) : wordNNN 0x0 nnn = op := hnnn ▸ wordNNN_of_digit ha
  unfold decode0 at h
  split at h <;> cases h
  · exact hword 0x0E0 (field_eq_of_toNat ‹_›)
  · exact hword 0x0EE (field_eq_of_toNat ‹_›)

theorem encode_of_decode8 (ha : opA op = 0x8) (h : decode8 op = some i) : encode i = op := by
  unfold decode8 at h
  split at h <;> cases h <;> exact wordXYN_of_digits ha (field_eq_of_toNat ‹_›)

theorem encode_of_decodeE (ha : opA op = 0xE) (h : decodeE op = some i) : encode i = op := by
  unfold decodeE at h
  split at h <;> cases h <;> exact wordXNN_of_digits ha (field_eq_of_toNat ‹_›)

theorem encode_of_decodeF (ha : opA op = 0xF) (h : decodeF op = some i) : encode i = op := by
  unfold decodeF at h
  split at h <;> cases h <;> exact wordXNN_of_digits ha (field_eq_of_toNat ‹_›)

theorem decodeXY0_eq_some_iff {j : Instr} : decodeXY0 op j = some i ↔ opN op = 0x0 ∧ j = i := by
  simp [decodeXY0, BitVec.toNat_eq]

end Groups

/-- What the decoder reads from a word, the encoder writes back to it: every digit the decoder has tested is literal in the row, and
every other bit of the word is in a field. -/
theorem encode_of_decodeWord {op : Opcode} {i : Instr} (h : decodeWord op = some i) : encode i = op := by
  unfold decodeWord at h
  split at h
  case h_1 ha => exact encode_of_decode0 (field_eq_of_toNat ha) h
  case h_6 ha | h_10 ha =>
    obtain ⟨hn, rfl⟩ := decodeXY0_eq_some_iff.1 h
    exact wordXYN_of_digits (field_eq_of_toNat ha) hn
  case h_9 ha => exact encode_of_decode8 (field_eq_of_toNat ha) h
  case h_15 ha => exact encode_of_decodeE (field_eq_of_toNat ha) h
  case h_16 =>
    have hlt : (opA op).toNat < 16 := (opA op).isLt
    have ha : (opA op).toNat = 15 := by
      simp only [imp_false] at *
      omega
    exact encode_of_decodeF (field_eq_of_toNat ha) h
  case h_2 ha | h_3 ha | h_11 ha | h_12 ha => cases h; exact wordNNN_of_digit (field_eq_of_toNat ha)
  case h_14 ha => cases h; exact wordXYN_of_digit (field_eq_of_toNat ha)
  all_goals cases h; exact wordXNN_of_digit (field_eq_of_toNat ‹_›)

/-- Settles O3, by the row groups of the decoder. -/
theorem encodeOfDecodeIsTheWord : Obligations.EncodeOfDecodeIsTheWord := fun _ _ => encode_of_decodeWord

/-- A call that decodes has the address field of its word as its target. -/
theorem decodeWord_call {op : Opcode} {nnn : Addr} (h : decodeWord op = some (.call nnn)) :
    decodeWord op = some (.call (opNNN op)) := by
  have hnnn : opNNN op = nnn := encode_of_decodeWord h ▸ opNNN_wordNNN 0x2 nnn
  rw [hnnn, h]

/-! ### The search in the opcode map (R74, R75) -/

theorem row_matches_encode (i : Instr) : i.row.matchesWord (encode i) = true := by
  cases i with
  | cls | ret => rfl
  | jp nnn | call nnn | ldI nnn | jpV0 nnn => exact Laws.EncodesItsRow.matches_NNN _ nnn _ rfl
  | seByte x nn | sneByte x nn | ldByte x nn | addByte x nn | rnd x nn =>
    exact Laws.EncodesItsRow.matches_XNN _ x nn _ rfl
  | drw x y n => exact Laws.EncodesItsRow.matches_XYN _ x y n _ rfl
  | seReg x y | sneReg x y | ldReg x y | orReg x y | andReg x y | xorReg x y | addReg x y | subReg x y | shr x y
  | subnReg x y | shl x y =>
    exact Laws.EncodesItsRow.matches_XYF _ x y _ _ rfl
  | skp x | sknp x | ldVxDt x | ldVxK x | ldDtVx x | ldStVx x | addI x | ldF x | ldB x | storeRegs x
  | loadRegs x =>
    exact Laws.EncodesItsRow.matches_XFF _ x _ _ rfl

/-- A word that matches a row has the digits of the match value wherever the mask is full. -/
theorem OpcodeRow.field_of_matchesWord {r : OpcodeRow} {op : Opcode} (h : r.matchesWord op = true) {start len : Nat}
    (hmask : r.mask.extractLsb' start len = BitVec.allOnes len) :
    op.extractLsb' start len = r.bits.extractLsb' start len := by
  rw [← BitVec.and_allOnes (x := op.extractLsb' start len), ← hmask, ← BitVec.extractLsb'_and, beq_iff_eq.1 h]

/-- A word that matches the row of an instruction decodes to an instruction of that row: the digits the decoder tests are the
literal digits of the row. -/
theorem map_row_decodeWord_of_matches {j : Instr} {op : Opcode} (h : j.row.matchesWord op = true) :
    (decodeWord op).map Instr.row = some j.row := by
  cases j <;> dsimp only [Instr.row] at h ⊢ <;> have ha : opA op = _ := OpcodeRow.field_of_matchesWord h rfl
  case cls | ret =>
    have hnnn : opNNN op = _ := OpcodeRow.field_of_matchesWord h rfl
    rw [decodeWord, decode0, ha, hnnn]; rfl
  case jp | call | ldI | jpV0 | seByte | sneByte | ldByte | addByte | rnd | drw =>
    rw [decodeWord, ha]; rfl
  case seReg | sneReg =>
    have hn : opN op = _ := OpcodeRow.field_of_matchesWord h rfl
    simp only [decodeWord, decodeXY0, ha, hn]; rfl
  case ldReg | orReg | andReg | xorReg | addReg | subReg | shr | subnReg | shl =>
    have hn : opN op = _ := OpcodeRow.field_of_matchesWord h rfl
    rw [decodeWord, decode8, ha, hn]; rfl
  case skp | sknp =>
    have hnn : opNN op = _ := OpcodeRow.field_of_matchesWord h rfl
    rw [decodeWord, decodeE, ha, hnn]; rfl
  case ldVxDt | ldVxK | ldDtVx | ldStVx | addI | ldF | ldB | storeRegs | loadRegs =>
    have hnn : opNN op = _ := OpcodeRow.field_of_matchesWord h rfl
    rw [decodeWord, decodeF, ha, hnn]; rfl

/-- Every row of the map is the row of an instruction, the one its match value decodes to. -/
theorem map_row_decodeWord_bits : ∀ r ∈ opcodeMap, (decodeWord r.bits).map Instr.row = some r := by decide

theorem row_mem_opcodeMap (i : Instr) : i.row ∈ opcodeMap := by
  cases i <;> simp [Instr.row, opcodeMap]

/-- A word matches a row of the map exactly when that is the row of the instruction it decodes to. -/
theorem matchesWord_iff {r : OpcodeRow} (hr : r ∈ opcodeMap) (op : Opcode) :
    r.matchesWord op = true ↔ (decodeWord op).map Instr.row = some r := by
  constructor
  · intro h
    obtain ⟨j, _, rfl⟩ := Option.map_eq_some_iff.1 (map_row_decodeWord_bits r hr)
    exact map_row_decodeWord_of_matches h
  · intro h
    obtain ⟨i, hi, rfl⟩ := Option.map_eq_some_iff.1 h
    exact encode_of_decodeWord hi ▸ row_matches_encode i

theorem opcodeMap_nodup : opcodeMap.Nodup := by decide

/-- Searching a list without repetitions for the value of an option gives that value. -/
theorem filter_eq_toList {α : Type} [DecidableEq α] {l : List α} (hl : l.Nodup) {o : Option α} (ho : ∀ a ∈ o, a ∈ l) :
    (l.filter fun a => decide (o = some a)) = o.toList := by
  cases o with
  | none => simp
  | some b =>
    have hb : b ∈ l := ho b rfl
    simp [eq_comm (a := b), List.filter_eq, List.count_eq_one_of_mem hl hb]

/-- Settles O4: a row of the map is matched exactly when it is the row of the decoded instruction, and the map lists each row
once. -/
theorem decodeAgreesWithTheOpcodeMap : Obligations.DecodeAgreesWithTheOpcodeMap := by
  intro op
  have hfilter : rowsMatching op = opcodeMap.filter fun r => decide ((decodeWord op).map Instr.row = some r) :=
    List.filter_congr fun r hr => by simp [← matchesWord_iff hr op]
  rw [hfilter]
  refine filter_eq_toList opcodeMap_nodup fun r hr => ?_
  obtain ⟨i, _, rfl⟩ := Option.map_eq_some_iff.1 hr
  exact row_mem_opcodeMap i

/-- Settles O1: each word is closed, so the decoder evaluates on it. -/
theorem wordsOfTheSpecDecode : Obligations.WordsOfTheSpecDecode := by
  unfold Obligations.WordsOfTheSpecDecode
  decide

end Sys2Proof
end

section
/-! PROOFS: what each instruction may change, and everything a tick can do (spec/40_cycle.md R91 to R101). -/

namespace Sys2Proof

open Machine

/-- The parts of the state an instruction may change, pc aside, a fatal error included (R101; spec/92_eei_decisions.md D11). -/
@[simp] def Instr.mayChange : Instr → List Part
  | .cls => [.display, .fbChanged]
  | .ret | .call _ => [.stack, .err, .mode]
  | .jp _ | .jpV0 _ | .seByte _ _ | .sneByte _ _ | .seReg _ _ | .sneReg _ _ | .skp _ | .sknp _ => []
  | .ldByte _ _ | .addByte _ _ | .ldReg _ _ | .orReg _ _ | .andReg _ _ | .xorReg _ _ | .addReg _ _ | .subReg _ _ | .shr _ _
  | .subnReg _ _ | .shl _ _ | .ldVxDt _ => [.regs]
  | .rnd _ _ => [.regs, .random]
  | .drw _ _ _ => [.regs, .display, .fbChanged]
  | .ldVxK _ => [.regs, .mode, .waitReg]
  | .ldDtVx _ => [.delay]
  | .ldStVx _ => [.sound]
  | .ldI _ | .addI _ | .ldF _ => [.index]
  | .ldB _ | .storeRegs _ => [.memory]
  | .loadRegs _ => [.regs, .index]

end Sys2Proof

namespace Sys2Proof.Machine

/-! ### Frames of the shared operations -/

section Operations

variable (s : State)

theorem SameBut_push (e : Word) : SameBut [.stack] s (s.push e) := fun p hp => by cases p <;> simp_all [Part.Same]

theorem SameBut_pop : SameBut [.stack] s s.pop := fun p hp => by cases p <;> simp_all [Part.Same]

theorem SameBut_fatal (code : ErrCode) : SameBut [.err, .mode] s (s.fatal code) := fun p hp => by
  cases p <;> simp_all [Part.Same]

theorem SameBut_enterKeyWait (x : Nibble) : SameBut [.mode, .waitReg] s (s.enterKeyWait x) := fun p hp => by
  cases p <;> simp_all [Part.Same]

theorem SameBut_resume : SameBut [.mode] s s.resume := fun p hp => by cases p <;> simp_all [Part.Same]

theorem SameBut_emit (r : Report) : SameBut [.report] s (s.emit r) := fun p hp => by cases p <;> simp_all [Part.Same]

theorem SameBut_drawn : SameBut [.random] s s.drawn := fun p hp => by cases p <;> simp_all [Part.Same]

theorem SameBut_setDisplay (fb : Display) : SameBut [.display, .fbChanged] s (s.setDisplay fb) := fun p hp => by
  cases p <;> simp_all [Part.Same]

theorem SameBut_setRegsFrom (k : Nat) (bs : List Byte) : SameBut [.regs] s (s.setRegsFrom k bs) := fun p hp => by
  cases p <;> simp_all [Part.Same]

theorem SameBut_setKey (k : Fin 16) (b : Bool) : SameBut [.keys] s (s.setKey k b) := fun p hp => by
  cases p <;> simp_all [Part.Same]

end Operations

/-- A change followed by a write of pc has the frame of the change. -/
theorem SameBut.setPc {ps : List Part} {s u : State} (h : SameBut ps s u) (n : Nat) : SameBut ps s (u.setPc n) :=
  h.trans ((SameBut_setPc u n).mono (List.nil_subset ps))

/-- Two changes have the frame of both. -/
theorem SameBut.append {ps qs : List Part} {s t u : State} (h : SameBut ps s t) (h' : SameBut qs t u) :
    SameBut (ps ++ qs) s u :=
  (h.mono (List.subset_append_left ps qs)).trans (h'.mono (List.subset_append_right ps qs))

/-- An instruction changes what it may change, and nothing else (R101). -/
theorem SameBut_afterExec (i : Instr) (s : State) : SameBut i.mayChange s (afterExec i s) := by
  cases i with
  | cls => exact (SameBut_setDisplay s _).setPc _
  | ret =>
    rw [afterExec_ret]
    split
    · exact (SameBut_fatal s _).mono (by simp)
    · exact ((SameBut_pop s).setPc _).mono (by simp)
  | call =>
    rw [afterExec_call]
    split
    · exact (SameBut_fatal s _).mono (by simp)
    · exact ((SameBut_push s _).setPc _).mono (by simp)
  | jp | jpV0 | seByte | sneByte | seReg | sneReg | skp | sknp => exact SameBut_setPc s _
  | ldByte | addByte | ldReg | orReg | andReg | xorReg | ldVxDt => exact (SameBut_setReg s _ _).setPc _
  | addReg | subReg | shr | subnReg | shl => exact SameBut_flaggedResult s _ _ _
  | rnd => exact (((SameBut_drawn s).append (SameBut_setReg _ _ _)).setPc _).mono (by simp)
  | drw => exact (((SameBut_setDisplay s _).append (SameBut_setReg _ vF _)).setPc _).mono (by simp)
  | ldVxK x =>
    rw [afterExec_ldVxK]
    split
    · exact ((SameBut_setReg s _ _).setPc _).mono (by simp)
    · exact (SameBut_enterKeyWait s x).mono (by simp)
  | ldDtVx => exact (SameBut_setDelay s _).setPc _
  | ldStVx => exact (SameBut_setSound s _).setPc _
  | ldI | addI | ldF => exact (SameBut_setIndex s _).setPc _
  | ldB | storeRegs => exact (SameBut_storeBytes s _ _).setPc _
  | loadRegs => exact ((SameBut_setRegsFrom s _ _).append (SameBut_setIndex _ _)).setPc _

/-! ### How an instruction can end -/

/-- The instruction raises that fatal error in this state (spec/60_exceptions.md R187, R188). -/
def State.RaisesCode (s : State) (i : Instr) (code : ErrCode) : Prop :=
  ((∃ nnn, i = .call nnn) ∧ s.sp = 16 ∧ code = .stackOverflow) ∨ (i = .ret ∧ s.sp = 0 ∧ code = .stackUnderflow)

theorem State.RaisesCode.ne_noError {s : State} {i : Instr} {code : ErrCode} (h : s.RaisesCode i code) : code ≠ .noError := by
  rcases h with ⟨_, _, rfl⟩ | ⟨_, _, rfl⟩ <;> decide

theorem State.RaisesCode.mayChange_eq {s : State} {i : Instr} {code : ErrCode} (h : s.RaisesCode i code) :
    i.mayChange = [.stack, .err, .mode] := by
  rcases h with ⟨⟨_, rfl⟩, _, _⟩ | ⟨rfl, _, _⟩ <;> rfl

/-- An instruction leaves MODE and ERR, or is an `Fx0A` that starts to wait, or raises a fatal error. -/
theorem afterExec_cases (i : Instr) (s : State) :
    ((afterExec i s).mode = s.mode ∧ (afterExec i s).err = s.err) ∨
    (∃ x, i = .ldVxK x ∧ s.anyPressed = none ∧ afterExec i s = s.enterKeyWait x) ∨
    (∃ code, s.RaisesCode i code ∧ afterExec i s = s.fatal code) := by
  have hkept (hmode : .mode ∉ i.mayChange) (herr : .err ∉ i.mayChange) :
      (afterExec i s).mode = s.mode ∧ (afterExec i s).err = s.err :=
    ⟨SameBut_afterExec i s .mode hmode, SameBut_afterExec i s .err herr⟩
  cases i with
  | ret =>
    by_cases hsp : s.sp = 0
    · exact .inr (.inr ⟨_, .inr ⟨rfl, hsp, rfl⟩, by simp [hsp]⟩)
    · exact .inl (by simp [hsp])
  | call nnn =>
    by_cases hsp : s.sp = 16
    · exact .inr (.inr ⟨_, .inl ⟨⟨nnn, rfl⟩, hsp, rfl⟩, by simp [hsp]⟩)
    · exact .inl (by simp [hsp])
  | ldVxK x =>
    cases hkey : s.anyPressed with
    | some k => exact .inl (by simp [hkey])
    | none => exact .inr (.inl ⟨x, rfl, rfl, by simp [hkey]⟩)
  | _ => exact .inl (hkept (by simp) (by simp))

/-! ### How a tick can end -/

/-- Everything a tick from `s` can end in (R91, R96; spec/60_exceptions.md R186, R189). -/
inductive TickOutcome (s : State) : State → Prop
  /-- The instruction at pc has run and the loop goes on. -/
  | goesOn (i : Instr) (hi : s.current = some i) (hmode : (afterExec i s.openTick).mode = .running)
      (herr : (afterExec i s.openTick).err = s.err) : TickOutcome s (afterExec i s.openTick).timerPhase
  /-- An `Fx0A` has found no key down. -/
  | waits (x : Nibble) (hi : s.current = some (.ldVxK x)) (hkey : s.anyPressed = none) :
      TickOutcome s (s.openTick.enterKeyWait x).timerPhase
  /-- The instruction at pc has raised a fatal error: no timer phase. -/
  | halts (i : Instr) (code : ErrCode) (hi : s.current = some i) (hcode : s.RaisesCode i code) :
      TickOutcome s (s.openTick.fatal code)
  /-- The word at pc is unsupported. -/
  | unsupported (hmode : s.mode = .running) (hdecode : decodeWord s.fetchWord = none) :
      TickOutcome s (s.openTick.unsupported s.fetchWord).timerPhase
  /-- The poll has found a key. -/
  | polled (k : Fin 16) (hmode : s.mode = .keyWait) (hkey : s.anyPressed = some k) :
      TickOutcome s (s.openTick.storeKey s.waitReg k).resume.timerPhase
  /-- The poll has found no key. -/
  | waitsOn (hmode : s.mode = .keyWait) (hkey : s.anyPressed = none) : TickOutcome s s.openTick.timerPhase
  /-- The core has halted before. -/
  | halted (hmode : s.mode = .halted) : TickOutcome s s.openTick

theorem tickOutcome_of_step {s t : State} (h : step s = .next t) : TickOutcome s t := by
  rcases step_cases h with ⟨i, hmode, hdecode, ht⟩ | ⟨hmode, hdecode, rfl⟩ | ⟨k, hmode, hkey, rfl⟩ |
    ⟨hmode, hkey, rfl⟩ | ⟨hmode, rfl⟩
  · have hi : s.current = some i := State.current_eq_some_iff.2 ⟨hmode, hdecode⟩
    rcases afterExec_cases i s.openTick with ⟨hkept, herr⟩ | ⟨x, rfl, hkey, hwait⟩ | ⟨code, hcode, hfatal⟩
    · have hrunning : (afterExec i s.openTick).mode = .running := hkept.trans hmode
      rw [if_neg (by simp [hrunning])] at ht
      exact ht ▸ .goesOn i hi hrunning herr
    · rw [hwait, if_neg (by simp)] at ht
      exact ht ▸ .waits x hi hkey
    · rw [hfatal, if_pos (State.fatal_mode _ _)] at ht
      exact ht ▸ .halts i code hi hcode
  · exact .unsupported hmode hdecode
  · exact .polled k hmode hkey
  · exact .waitsOn hmode hkey
  · exact .halted hmode

/-- Every tick ends in a next state, whatever the MODE it starts in (R102). -/
theorem exists_step (s : State) : ∃ t, step s = .next t := by
  cases hmode : s.mode with
  | running => exact ⟨_, (step_running hmode).trans (closeTick_next _)⟩
  | keyWait => exact ⟨_, step_keyWait hmode⟩
  | halted => exact ⟨_, step_halted hmode⟩

/-- The parts every tick may change: the timers and the tick's opening writes (R91, R97). -/
def tickParts : List Part := [.fbChanged, .started, .report, .delay, .sound]

/-- The parts a tick may change when it runs no instruction: a poll writes a register and MODE (R96). -/
def pollParts : List Part := [.regs, .mode]

/-- A tick changes what the instruction it executes may change, or what a poll may change, and the tick's own parts. -/
theorem Same_of_step {s t : State} (h : step s = .next t) {p : Part} (htick : p ∉ tickParts) (hpoll : p ∉ pollParts)
    (hexec : ∀ i, s.current = some i → p ∉ i.mayChange) : p.Same s t := by
  have hframe {ps : List Part} {u : State} (hu : SameBut ps s.openTick u) (hp : p ∉ ps) : p.Same s u.timerPhase :=
    (((SameBut_openTick s).append hu).append (SameBut_timerPhase u)) p (by simp_all [tickParts])
  cases tickOutcome_of_step h with
  | goesOn i hi => exact hframe (SameBut_afterExec i _) (hexec i hi)
  | waits x hi => exact hframe (SameBut_enterKeyWait _ x) fun hp => hexec _ hi (List.mem_cons_of_mem _ hp)
  | halts i code hi hcode =>
    have hp : p ∉ [.stack, .err, .mode] := hcode.mayChange_eq ▸ hexec i hi
    exact ((SameBut_openTick s).append (SameBut_fatal _ code)) p (by simp_all [tickParts])
  | unsupported => exact hframe ((SameBut_emit _ _).setPc _) (by simp_all [tickParts])
  | polled => exact hframe (((SameBut_setReg _ _ _).setPc _).append (SameBut_resume _)) (by simp_all [pollParts])
  | waitsOn => exact hframe (SameBut.refl [] _) (by simp)
  | halted => exact SameBut_openTick s p (by simp_all [tickParts])

end Sys2Proof.Machine
end

section
/-! PROOFS of the family of spec/10_state.md and spec/20_memory.md: what no other instruction writes. -/

namespace Sys2Proof.Machine

/-! ### The spec's tables of writers agree with what the instructions may change -/

theorem display_notMem_mayChange {i : Instr} (h : i.writesDisplay = false) : .display ∉ i.mayChange := by
  cases i <;> simp_all [Instr.writesDisplay]

theorem memory_notMem_mayChange {i : Instr} (h : i.storesToMemory = false) : .memory ∉ i.mayChange := by
  cases i <;> simp_all [Instr.storesToMemory]

theorem stack_notMem_mayChange {i : Instr} (h : i.usesStack = false) : .stack ∉ i.mayChange := by
  cases i <;> simp_all [Instr.usesStack]

theorem index_notMem_mayChange {i : Instr} (h : i.writesIndex = false) : .index ∉ i.mayChange := by
  cases i <;> simp_all [Instr.writesIndex]

theorem keys_notMem_mayChange (i : Instr) : .keys ∉ i.mayChange := by cases i <;> simp

theorem font_notMem_mayChange (i : Instr) : .font ∉ i.mayChange := by cases i <;> simp

theorem report_notMem_mayChange (i : Instr) : .report ∉ i.mayChange := by cases i <;> simp

theorem started_notMem_mayChange (i : Instr) : .started ∉ i.mayChange := by cases i <;> simp

/-! ### The block load -/

theorem getElem_indexBytes (s : State) (n k : Nat) (hk : k < (s.indexBytes n).length) :
    (s.indexBytes n)[k] = s.readByte (s.indexAddr k) := by
  rw [← s.readByte_indexAddr_add s k]
  exact Memory.getElem_readBytes _ _ _ _ hk

/-- `Fx65` loads the registers up to x and no other (spec/43_index_memory.md R145). -/
theorem reg_afterExec_loadRegs (s : State) (x r : Nibble) :
    (afterExec (.loadRegs x) s).reg r = if r ≤ x then s.readByte (s.indexAddr r.toNat) else s.reg r := by
  have hx : x.toNat < 16 := x.isLt
  have hblock : (afterExec (.loadRegs x) s).reg r = (s.setRegsFrom 0 (s.indexBytes (x.toNat + 1))).reg r := rfl
  rw [hblock, State.reg_setRegsFrom _ _ _ (by simp only [State.length_indexBytes]; omega)]
  by_cases hr : r ≤ x
  · have hmem : r.toNat - 0 < (s.indexBytes (x.toNat + 1)).length := by
      have hle : r.toNat ≤ x.toNat := hr
      simp only [State.length_indexBytes]
      omega
    rw [if_pos hr, dif_pos ⟨Nat.zero_le _, hmem⟩, getElem_indexBytes, Nat.sub_zero]
  · rw [if_neg hr, dif_neg]
    rintro ⟨_, hlt⟩
    rw [State.length_indexBytes] at hlt
    exact hr (by simp only [BitVec.le_def]; omega)

theorem PcPlus_afterExec_loadRegs (s : State) (x : Nibble) : PcPlus 2 s (afterExec (.loadRegs x) s) := by
  rw [PcPlus, afterExec_loadRegs, State.advance, State.toNat_setPc_pc, State.setIndex_pc, State.setRegsFrom_pc]

/-- VF is the last register. -/
theorem le_vF (x : Nibble) : x ≤ vF := by
  have hx : x.toNat < 16 := x.isLt
  simp only [BitVec.le_def, vF]
  exact Nat.le_of_lt_succ hx

/-! ### The obligations -/

/-- Settles O22: no other instruction may change the display, and neither a poll nor the tick itself does. -/
theorem onlyClearAndDrawWriteTheDisplay : Obligations.OnlyClearAndDrawWriteTheDisplay := fun _ _ h hi =>
  Same_of_step h (by decide) (by decide) fun i hcurrent => display_notMem_mayChange (hi i hcurrent)

/-- Settles O23: no other instruction may change memory, and neither a poll nor the tick itself does. -/
theorem onlyTheTwoStoresWriteMemory : Obligations.OnlyTheTwoStoresWriteMemory := fun _ _ h hi =>
  Same_of_step h (by decide) (by decide) fun i hcurrent => memory_notMem_mayChange (hi i hcurrent)

/-- Settles O24: no other instruction may change the stack, and neither a poll nor the tick itself does. -/
theorem onlyCallAndReturnWriteTheStack : Obligations.OnlyCallAndReturnWriteTheStack := fun _ _ h hi =>
  Same_of_step h (by decide) (by decide) fun i hcurrent => stack_notMem_mayChange (hi i hcurrent)

/-- Settles O25: no other instruction may change I, and neither a poll nor the tick itself does. -/
theorem onlyFourInstructionsWriteTheIndex : Obligations.OnlyFourInstructionsWriteTheIndex := fun _ _ h hi =>
  Same_of_step h (p := .index) (by decide) (by decide) fun i hcurrent => index_notMem_mayChange (hi i hcurrent)

/-- Settles O26: no instruction may change the keys. -/
theorem noTickChangesAKey : Obligations.NoTickChangesAKey := fun _ _ h =>
  Same_of_step h (by decide) (by decide) fun i _ => keys_notMem_mayChange i

/-- Settles O27: an instruction that may change a register either has VF as its destination or another register. -/
theorem onlyTheListedInstructionsWriteVF : Obligations.OnlyTheListedInstructionsWriteVF := by
  intro i s t h hi
  rw [← afterExec_of_exec h]
  have hframe (hregs : .regs ∉ i.mayChange) : (afterExec i s).reg vF = s.reg vF := SameBut_afterExec i s .regs hregs vF
  cases i with
  | addReg | subReg | shr | subnReg | shl | drw => exact absurd hi (by simp [Instr.writesVF])
  | ldByte x | addByte x | ldReg x | orReg x | andReg x | xorReg x | rnd x | ldVxDt x =>
    have hx : x ≠ vF := beq_eq_false_iff_ne.1 hi
    simp [hx.symm]
  | ldVxK x =>
    have hx : x ≠ vF := beq_eq_false_iff_ne.1 hi
    cases hkey : s.anyPressed <;> simp [hkey, hx.symm]
  | loadRegs x =>
    have hx : x ≠ vF := beq_eq_false_iff_ne.1 hi
    rw [reg_afterExec_loadRegs, if_neg fun hle => hx (BitVec.le_antisymm (le_vF x) hle)]
  | _ => exact hframe (by simp)

/-! ### Outcomes of the other host actions -/

/-- Everything an admitted host action other than TICK ends in (spec/10_state.md R38). -/
inductive HostOutcome (s : State) : HostAction → State → Prop
  | reset : HostOutcome s .reset (hostReset s)
  | keyPress (k : Nat) (hk : k < 16) : HostOutcome s (.keyPress k) (s.setKey ⟨k, hk⟩ true)
  | keyRelease (k : Nat) (hk : k < 16) : HostOutcome s (.keyRelease k) (s.setKey ⟨k, hk⟩ false)
  | load (offset : Nat) (b : Byte) (hstarted : s.started = false) (hoffset : offset < Config.imageBytes) :
      HostOutcome s (.load offset b) (s.storeBytes (Config.programBase + offset) [b])
  | rnd (b : Byte) : HostOutcome s (.rnd b) (hostRnd b s)

theorem hostKey_of_lt {k : Nat} (hk : k < 16) (pressed : Bool) (s : State) :
    hostKey k pressed s = .next (s.setKey ⟨k, hk⟩ pressed) := dif_pos hk

theorem hostKey_of_ge {k : Nat} (hk : 16 ≤ k) (pressed : Bool) (s : State) :
    hostKey k pressed s = .refused (.keyCodeOutOfRange k) := dif_neg (Nat.not_lt.2 hk)

theorem hostLoad_after_start {s : State} (h : s.started = true) (offset : Nat) (b : Byte) :
    hostLoad offset b s = .refused .loadAfterFirstTick := if_pos h

theorem hostLoad_of_lt {s : State} (h : s.started = false) {offset : Nat} (hoffset : offset < Config.imageBytes) (b : Byte) :
    hostLoad offset b s = .next (s.storeBytes (Config.programBase + offset) [b]) := by simp [hostLoad, h, hoffset]

theorem hostLoad_of_ge {s : State} (h : s.started = false) {offset : Nat} (hoffset : Config.imageBytes ≤ offset) (b : Byte) :
    hostLoad offset b s = .refused (.loadOffsetOutOfRange offset) := by simp [hostLoad, h, Nat.not_lt.2 hoffset]

theorem hostOutcome_of_hostStep {a : HostAction} {s t : State} (ha : a ≠ .tick) (h : hostStep a s = .next t) :
    HostOutcome s a t := by
  cases a with
  | tick => exact absurd rfl ha
  | reset => cases h; exact .reset
  | keyPress k =>
    rcases Nat.lt_or_ge k 16 with hk | hk
    · cases (hostKey_of_lt hk true s).symm.trans h; exact .keyPress k hk
    · cases (hostKey_of_ge hk true s).symm.trans h
  | keyRelease k =>
    rcases Nat.lt_or_ge k 16 with hk | hk
    · cases (hostKey_of_lt hk false s).symm.trans h; exact .keyRelease k hk
    · cases (hostKey_of_ge hk false s).symm.trans h
  | load offset b =>
    cases hstarted : s.started with
    | true => cases (hostLoad_after_start hstarted offset b).symm.trans h
    | false =>
      rcases Nat.lt_or_ge offset Config.imageBytes with hoffset | hoffset
      · cases (hostLoad_of_lt hstarted hoffset b).symm.trans h; exact .load offset b hstarted hoffset
      · cases (hostLoad_of_ge hstarted hoffset b).symm.trans h
  | rnd b => cases h; exact .rnd b

/-- Settles O60: no tick may change the parameter, and the other host actions keep it too. -/
theorem fontRomIsFixed : Obligations.FontRomIsFixed := by
  intro a s t h
  by_cases ha : a = .tick
  · subst ha
    exact Same_of_step h (p := .font) (by decide) (by decide) fun i _ => font_notMem_mayChange i
  · cases hostOutcome_of_hostStep ha h <;> rfl

end Sys2Proof.Machine
end

section
/-! PROOFS of the family of spec/40_cycle.md: the tick, MODE, the timers and the outputs. -/

namespace Sys2Proof.Machine

theorem State.current_of_not_running {s : State} (h : s.mode ≠ .running) : s.current = none := if_neg h

theorem State.current_of_unsupported {s : State} (h : decodeWord s.fetchWord = none) : s.current = none := by
  simp [current, h]

theorem toNat_countDown_timers (s : State) :
    s.timerPhase.dt.toNat = s.dt.toNat - 1 ∧ s.timerPhase.st.toNat = s.st.toNat - 1 :=
  ⟨toNat_countDown s.dt, toNat_countDown s.st⟩

/-- Settles O15, by the three forms of a tick. -/
theorem everyTickHasANextState : Obligations.EveryTickHasANextState := exists_step

/-- Settles O14: the clauses are the parts `step` is made of. -/
theorem tickRunsTheDecodedInstruction : Obligations.TickRunsTheDecodedInstruction := by
  intro s hmode
  have hstep := step_running hmode
  refine ⟨s.fetchWord_eq_append, fun i hi => ?_, fun hnone => ?_, rfl, rfl, rfl, rfl, SameBut_openTick s, closeTick_next⟩
  · rw [hstep, afterWord, hi, exec_eq_next]
  · rw [hstep, afterWord, hnone]

/-- Settles O16: the outcome is the report, the move of pc and the timer phase. -/
theorem unsupportedWordIsReportedAndSkipped : Obligations.UnsupportedWordIsReportedAndSkipped := by
  intro s hmode hnone
  obtain ⟨t, hstep⟩ := exists_step s
  refine ⟨t, hstep, ?_⟩
  cases tickOutcome_of_step hstep with
  | goesOn i hi | waits x hi | halts i code hi =>
    simp [State.current_of_unsupported hnone] at hi
  | polled k hother | waitsOn hother | halted hother => simp [hmode] at hother
  | unsupported =>
    obtain ⟨hdt, hst⟩ := toNat_countDown_timers (s.openTick.unsupported s.fetchWord)
    refine ⟨rfl, toNat_pc_of_wrap _, hmode, rfl, rfl, hdt, hst, ?_⟩
    exact (((SameBut_openTick s).append ((SameBut_emit _ _).setPc _)).append (SameBut_timerPhase _)).mono (by simp)

/-- Settles O17: the outcome is that of the poll, on the lowest key down. -/
theorem keyWaitPollTakesTheLowestKey : Obligations.KeyWaitPollTakesTheLowestKey := by
  intro s hmode
  have hstep := step_keyWait hmode
  constructor
  · intro k hdown hlower
    have hkey : s.openTick.anyPressed = some k := State.anyPressed_eq_some_iff.2 ⟨hdown, hlower⟩
    rw [keyWaitPoll_some hkey] at hstep
    obtain ⟨hdt, hst⟩ := toNat_countDown_timers (s.openTick.storeKey s.waitReg k).resume
    refine ⟨_, hstep, ?_, toNat_pc_of_wrap _, rfl, hdt, hst, rfl, rfl, rfl, fun r hr => by simp [hr], ?_⟩
    · simp [toNat_keyByte]
    · exact ((((SameBut_openTick s).append ((SameBut_setReg _ _ _).setPc _)).append (SameBut_resume _)).append
        (SameBut_timerPhase _)).mono (by simp)
  · intro hnone
    have hkey : s.openTick.anyPressed = none := State.anyPressed_eq_none_iff.2 hnone
    rw [keyWaitPoll_none hkey] at hstep
    obtain ⟨hdt, hst⟩ := toNat_countDown_timers s.openTick
    exact ⟨_, hstep, rfl, hmode, hdt, hst, rfl, rfl, rfl,
      ((SameBut_openTick s).append (SameBut_timerPhase _)).mono (by simp)⟩

/-- The opening of a tick changes nothing where its writes are there already. -/
theorem openTick_eq_self {s : State} (hstarted : s.started = true) (hfb : s.fbChanged = false) (hreport : s.report = none) :
    s.openTick = s := by
  cases s
  simp_all [State.openTick]

/-- Settles O18: HALTED leaves the opening of the tick, whose writes the invariant says are there already. -/
theorem haltedTickChangesNothing : Obligations.HaltedTickChangesNothing := by
  intro s ⟨_, _, _, _, _, _, hstarted, hquiet⟩ hmode
  have hnot : s.mode ≠ .running := by simp [hmode]
  obtain ⟨hfb, hreport⟩ := hquiet (.inl hnot)
  rw [step_halted hmode, openTick_eq_self (hstarted hnot) hfb hreport]

/-- Settles O19: the timer phase ends every such tick, and no instruction but `Fx15` may change DT, none but `Fx18` ST. -/
theorem timersCountDownOncePerTick : Obligations.TimersCountDownOncePerTick := by
  intro s t hs h ht
  cases tickOutcome_of_step h with
  | goesOn i hi =>
    obtain ⟨hdt, hst⟩ := toNat_countDown_timers (afterExec i s.openTick)
    rw [hdt, hst, hi]
    have hframe := SameBut_afterExec i s.openTick
    constructor
    · cases i with
      | ldDtVx => rfl
      | _ => exact congrArg (·.toNat - 1) (hframe .delay (by simp))
    · cases i with
      | ldStVx => rfl
      | _ => exact congrArg (·.toNat - 1) (hframe .sound (by simp))
  | waits x hi => rw [hi]; exact toNat_countDown_timers s
  | halts => exact absurd rfl ht
  | unsupported _ hnone => rw [State.current_of_unsupported hnone]; exact toNat_countDown_timers s
  | polled _ hmode | waitsOn hmode =>
    rw [State.current_of_not_running (by simp [hmode])]; exact toNat_countDown_timers s
  | halted hmode => exact absurd hmode hs

/-- Settles O20: each outcome of a tick, with the MODE it starts from and the MODE it ends in. -/
theorem modeChangesOnlyAsTheRulesSay : Obligations.ModeChangesOnlyAsTheRulesSay := by
  intro s t h
  cases tickOutcome_of_step h with
  | goesOn i hi hmode herr =>
    have hrunning := (State.current_eq_some_iff.1 hi).1
    simp [hrunning, hmode, herr]
  | waits x hi hkey =>
    have hrunning := (State.current_eq_some_iff.1 hi).1
    simp [hrunning, hi, State.anyPressed_eq_none_iff.1 hkey]
  | halts i code hi hcode =>
    have hrunning := (State.current_eq_some_iff.1 hi).1
    have hraised : ((∃ nnn, i = .call nnn) ∧ s.sp = 16 ∧ code = .stackOverflow) ∨
      (i = .ret ∧ s.sp = 0 ∧ code = .stackUnderflow) := hcode
    simpa [hrunning, hi] using hraised
  | unsupported hrunning => simp [hrunning]
  | polled k hwaiting hkey =>
    have hdown : ∃ k, s.key k = true := ⟨k, (State.anyPressed_eq_some_iff.1 hkey).1⟩
    simp [hwaiting, hdown]
  | waitsOn hwaiting hkey => simp [hwaiting, State.anyPressed_eq_none_iff.1 hkey]
  | halted hhalted => simp [hhalted]

/-- An instruction raises FB_CHANGED exactly when it writes the display (spec/40_cycle.md R100). -/
theorem fbChanged_afterExec (i : Instr) (s : State) :
    (afterExec i s).fbChanged = (i.writesDisplay || s.fbChanged) := by
  cases i with
  | cls | drw => rfl
  | _ => exact SameBut_afterExec _ s .fbChanged (by simp)

theorem State.RaisesCode.writesDisplay {s : State} {i : Instr} {code : ErrCode} (h : s.RaisesCode i code) :
    i.writesDisplay = false := by
  rcases h with ⟨⟨_, rfl⟩, _, _⟩ | ⟨rfl, _, _⟩ <;> rfl

/-- Settles O21: the opening of the tick lowers both outputs, and each outcome shows what raises one after it. -/
theorem outputsNameTheTicksThatRaiseThem : Obligations.OutputsNameTheTicksThatRaiseThem := by
  intro s t h
  cases tickOutcome_of_step h with
  | goesOn i hi =>
    have hreport : (afterExec i s.openTick).report = none := SameBut_afterExec i _ .report (report_notMem_mayChange i)
    simp [(State.current_eq_some_iff.1 hi).2, hi, fbChanged_afterExec, hreport]
  | waits x hi => simp [(State.current_eq_some_iff.1 hi).2, hi, Instr.writesDisplay]
  | halts i code hi hcode => simp [(State.current_eq_some_iff.1 hi).2, hi, hcode.writesDisplay]
  | unsupported hmode hnone => simp [State.current_of_unsupported hnone, hmode, hnone]
  | polled _ hmode | waitsOn hmode | halted hmode => simp [State.current_of_not_running, hmode]

end Sys2Proof.Machine
end

section
/-! PROOFS of the invariants of the machine: they hold at reset, and every tick and host action keeps them. -/

namespace Sys2Proof.Machine

/-! ### The two halves of the invariant -/

/-- The invariants of the data an instruction may write: memory, I and the stack. -/
def DataInv (s : State) : Prop := MemoryCanonical s ∧ IndexInTwelveBits s ∧ StackHoldsAddresses s

/-- The invariants of the loop: MODE, ERR and what is true at pc and at the outputs when the core waits or has halted. -/
def ControlInv (s : State) : Prop :=
  HaltedMeansError s ∧ HaltIsPrecise s ∧ WaitHoldsThePendingInstr s ∧ OutputsQuiet s

theorem machineInv_iff {s : State} : MachineInv s ↔ DataInv s ∧ ControlInv s := by
  simp only [MachineInv, DataInv, ControlInv, and_assoc]

/-! ### The data -/

section Data

variable {s : State} (i : Instr)

theorem memoryCanonical_afterExec (h : MemoryCanonical s) : MemoryCanonical (afterExec i s) := by
  cases i with
  | ldB | storeRegs => exact Memory.writeBytes_wf h _ _
  | ret => rw [afterExec_ret]; split <;> exact h
  | call => rw [afterExec_call]; split <;> exact h
  | ldVxK => rw [afterExec_ldVxK]; split <;> exact h
  | loadRegs => simpa [MemoryCanonical] using h
  | _ => exact h

theorem index_afterExec_lt (h : IndexInTwelveBits s) : IndexInTwelveBits (afterExec i s) := by
  have hwritten (n : Nat) : (BitVec.ofNat 16 (wrapAddr n)).toNat < 4096 := by
    rw [toNat_index_of_wrap]
    exact Nat.mod_lt _ (by decide)
  have hkept (hi : .index ∉ i.mayChange) : (afterExec i s).i.toNat < 4096 := by
    rw [show (afterExec i s).i = s.i from SameBut_afterExec i s .index hi]
    exact h
  cases i with
  | ldI | addI | ldF | loadRegs => exact hwritten _
  | _ => exact hkept (by simp)

/-- A pc value fits a stack entry. -/
theorem toNat_setWidth_pc (pc : Addr) : (pc.setWidth 16).toNat = pc.toNat :=
  BitVec.toNat_setWidth_of_le (by decide)

theorem stackEntry_afterExec_lt (h : StackHoldsAddresses s) : StackHoldsAddresses (afterExec i s) := by
  intro j
  have hkept (hi : .stack ∉ i.mayChange) : ((afterExec i s).stackEntry j).toNat < 4096 := by
    rw [(SameBut_afterExec i s .stack hi).2 j]
    exact h j
  cases i with
  | ret => rw [afterExec_ret]; split <;> exact h j
  | call =>
    rw [afterExec_call]
    split
    · exact h j
    · rw [State.setPc_stackEntry, State.stackEntry_push s _ ‹_›]
      split
      · rw [toNat_setWidth_pc]
        exact s.pc.isLt
      · exact h j
  | _ => exact hkept (by simp)

/-- An instruction keeps the invariants of the data. -/
theorem DataInv.afterExec (h : DataInv s) : DataInv (afterExec i s) := by
  obtain ⟨hmem, hindex, hstack⟩ := h
  exact ⟨memoryCanonical_afterExec i hmem, index_afterExec_lt i hindex, stackEntry_afterExec_lt i hstack⟩

end Data

/-! ### The loop -/

namespace ControlInv

variable {s : State}

theorem err_eq_noError (h : ControlInv s) (hmode : s.mode ≠ .halted) : s.err = .noError := by
  obtain ⟨hhalted, _⟩ := h
  exact not_not.1 fun herr => hmode (hhalted.2 herr)

/-- In RUNNING only the error and, before the first tick, the outputs are constrained. -/
theorem of_running (hmode : s.mode = .running) (herr : s.err = .noError)
    (hquiet : s.started = true ∨ s.fbChanged = false ∧ s.report = none) : ControlInv s := by
  refine ⟨by simp [HaltedMeansError, hmode, herr], by simp [HaltIsPrecise, herr], fun h => by simp [hmode] at h,
    fun hnot => absurd hmode hnot, ?_⟩
  rintro (hnot | hstarted)
  · exact absurd hmode hnot
  · exact hquiet.resolve_left (by simp [hstarted])

theorem of_keyWait (hmode : s.mode = .keyWait) (herr : s.err = .noError)
    (hpending : decodeWord s.fetchWord = some (.ldVxK s.waitReg)) (hstarted : s.started = true)
    (hfb : s.fbChanged = false) (hreport : s.report = none) : ControlInv s :=
  ⟨by simp [HaltedMeansError, hmode, herr], by simp [HaltIsPrecise, herr], fun _ => hpending,
    fun _ => hstarted, fun _ => ⟨hfb, hreport⟩⟩

/-- A fatal tick is precise: it leaves pc, memory and SP as the instruction that raised the error found them. -/
theorem of_fatal {i : Instr} {code : ErrCode} (hi : s.current = some i) (hcode : s.RaisesCode i code) :
    ControlInv (s.openTick.fatal code) := by
  have hdecode := (State.current_eq_some_iff.1 hi).2
  refine ⟨by simp [HaltedMeansError, hcode.ne_noError], ?_, nofun, fun _ => rfl, fun _ => ⟨rfl, rfl⟩⟩
  rcases hcode with ⟨⟨nnn, rfl⟩, hsp, rfl⟩ | ⟨rfl, hsp, rfl⟩
  · exact ⟨fun _ => ⟨hsp, decodeWord_call hdecode⟩, by simp⟩
  · exact ⟨by simp, fun _ => ⟨hsp, hdecode⟩⟩

end ControlInv

/-! ### The obligations -/

/-- Settles O12, by the outcomes of a tick: the instruction keeps the data, and each outcome has its form of the loop's
invariants. -/
theorem everyTickKeepsTheInvariants : Obligations.EveryTickKeepsTheInvariants := by
  intro s t hinv hstep
  obtain ⟨hdata, hcontrol⟩ := machineInv_iff.1 hinv
  obtain ⟨_, _, hwait, hrunningQuiet, hquiet⟩ := id hcontrol
  have hdata' : DataInv s.openTick := hdata
  have hnoError {i : Instr} (hi : s.current = some i) : s.err = .noError :=
    hcontrol.err_eq_noError (by simp [(State.current_eq_some_iff.1 hi).1])
  rw [machineInv_iff]
  cases tickOutcome_of_step hstep with
  | goesOn i hi hmode herr =>
    have hstarted : (afterExec i s.openTick).started = true :=
      SameBut_afterExec i s.openTick .started (started_notMem_mayChange i)
    exact ⟨hdata'.afterExec i, .of_running hmode (herr.trans (hnoError hi)) (.inl hstarted)⟩
  | waits x hi =>
    exact ⟨hdata, .of_keyWait rfl (hnoError hi) (State.current_eq_some_iff.1 hi).2 rfl rfl rfl⟩
  | halts i code hi hcode => exact ⟨hdata, .of_fatal hi hcode⟩
  | unsupported hmode => exact ⟨hdata, .of_running hmode (hcontrol.err_eq_noError (by simp [hmode])) (.inl rfl)⟩
  | polled k hmode => exact ⟨hdata, .of_running rfl (hcontrol.err_eq_noError (by simp [hmode])) (.inl rfl)⟩
  | waitsOn hmode =>
    exact ⟨hdata, .of_keyWait hmode (hcontrol.err_eq_noError (by simp [hmode])) (hwait hmode) rfl rfl rfl⟩
  | halted hmode =>
    have hnot : s.mode ≠ .running := by simp [hmode]
    obtain ⟨hfb, hreport⟩ := hquiet (.inl hnot)
    rw [openTick_eq_self (hrunningQuiet hnot) hfb hreport]
    exact ⟨hdata, hcontrol⟩

/-- Settles O11: nothing is listed in memory, I and the stack are zero, and the core runs with quiet outputs. -/
theorem resetMeetsTheInvariants : Obligations.ResetMeetsTheInvariants := by
  intro rom
  have hstack : StackHoldsAddresses (State.resetWith rom) := fun j => by simp [State.stackEntry, State.resetWith]
  have hindex : IndexInTwelveBits (State.resetWith rom) := by simp [State.resetWith]
  exact machineInv_iff.2 ⟨⟨Memory.wf_nil, hindex, hstack⟩, .of_running rfl rfl (.inr ⟨rfl, rfl⟩)⟩

/-- Settles O13: RESET establishes the invariants, a LOAD keeps memory canonical and finds the core running, and no invariant speaks
of the keys or the random input. -/
theorem everyHostActionKeepsTheInvariants : Obligations.EveryHostActionKeepsTheInvariants := by
  intro a s t ha hinv hstep
  cases hostOutcome_of_hostStep ha hstep with
  | reset => exact resetMeetsTheInvariants s.fontRom
  | keyPress | keyRelease | rnd => exact hinv
  | load offset b hstarted =>
    obtain ⟨⟨hmem, hindex, hstack⟩, hcontrol⟩ := machineInv_iff.1 hinv
    obtain ⟨_, _, _, hrunningQuiet, hquiet⟩ := id hcontrol
    have hmode : s.mode = .running := not_not.1 fun hnot => by simp [hrunningQuiet hnot] at hstarted
    exact machineInv_iff.2 ⟨⟨Memory.writeBytes_wf hmem _ _, hindex, hstack⟩,
      .of_running hmode (hcontrol.err_eq_noError (by simp [hmode])) (.inr (hquiet (.inr hstarted)))⟩

end Sys2Proof.Machine
end

section
/-! PROOFS: where an instruction sends pc (R95), what HALTED keeps (R189, R190), and what the state does not depend on. -/

namespace Sys2Proof.Machine

/-! ### The pc of every instruction -/

/-- A skip moves pc by 4 or by 2 (spec/41_flow.md R113). -/
theorem PcPlus_skipIf_cases (s : State) (c : Bool) : PcPlus 2 s (s.skipIf c) ∨ PcPlus 4 s (s.skipIf c) := by
  cases c with
  | false => exact .inl (toNat_pc_of_wrap _)
  | true => exact .inr (toNat_pc_of_wrap _)

/-- Settles O28, by the instruction: the branches of `2nnn`, `00EE` and `Fx0A` are the outcomes that leave pc. -/
theorem pcHasTheFourOutcomes : Obligations.PcHasTheFourOutcomes := by
  intro i s t h
  cases afterExec_of_exec h
  cases i with
  | jp | jpV0 => exact .inr (.inr (.inl ⟨_, rfl, toNat_pc_of_wrap _⟩))
  | call nnn =>
    by_cases hsp : s.sp = 16
    · refine .inr (.inr (.inr ⟨by simp [hsp], .inr ⟨.inl ⟨⟨nnn, rfl⟩, hsp⟩, by simp [hsp]⟩⟩))
    · refine .inr (.inr (.inl ⟨nnn.toNat, by simp [State.pcTarget, hsp], ?_⟩))
      rw [afterExec_call, if_neg hsp]
      exact toNat_pc_of_wrap _
  | ret =>
    by_cases hsp : s.sp = 0
    · refine .inr (.inr (.inr ⟨by simp [hsp], .inr ⟨.inr ⟨rfl, hsp⟩, by simp [hsp]⟩⟩))
    · refine .inr (.inr (.inl ⟨s.topEntry.toNat + 2, by simp [State.pcTarget, hsp], ?_⟩))
      rw [afterExec_ret, if_neg hsp]
      exact toNat_pc_of_wrap _
  | seByte | sneByte | seReg | sneReg | skp | sknp =>
    exact (PcPlus_skipIf_cases s _).imp (⟨rfl, ·⟩) (.inl ⟨rfl, ·⟩)
  | ldVxK x =>
    cases hkey : s.anyPressed with
    | some k =>
      refine .inl ⟨rfl, ?_⟩
      rw [afterExec_ldVxK, hkey]
      exact toNat_pc_of_wrap _
    | none =>
      exact .inr (.inr (.inr ⟨by simp [hkey], .inl ⟨⟨x, rfl⟩, State.anyPressed_eq_none_iff.1 hkey, by simp [hkey]⟩⟩))
  | loadRegs => exact .inl ⟨rfl, PcPlus_afterExec_loadRegs s _⟩
  | _ => exact .inl ⟨rfl, toNat_pc_of_wrap _⟩

/-! ### HALTED -/

/-- Settles O36: the outcome of a fatal tick has no timer phase, and no other outcome ends in HALTED; the host actions but RESET
leave MODE and ERR. -/
theorem fatalTickKeepsTheTimers : Obligations.FatalTickKeepsTheTimers := by
  refine ⟨fun s t hrunning h hhalted => ?_, fun a s t ha hhalted h => ?_, fun s => ⟨hostReset s, rfl, rfl, rfl⟩⟩
  · cases tickOutcome_of_step h with
    | goesOn i hi hmode => exact absurd (hhalted.symm.trans hmode) (by decide)
    | waits => exact absurd hhalted (by simp)
    | halts i code => exact ⟨rfl, ((SameBut_openTick s).append (SameBut_fatal _ code)).mono (by simp)⟩
    | unsupported => exact absurd (hhalted.symm.trans hrunning) (by decide)
    | polled => exact absurd hhalted (by simp)
    | waitsOn hmode | halted hmode => exact absurd (hrunning.symm.trans hmode) (by decide)
  · by_cases htick : a = .tick
    · subst htick
      obtain ⟨_, _, _, hstays, _⟩ := modeChangesOnlyAsTheRulesSay s t h
      exact hstays hhalted
    · cases hostOutcome_of_hostStep htick h with
      | reset => exact absurd rfl ha
      | keyPress | keyRelease | load | rnd => exact ⟨hhalted, rfl⟩

/-! ### A part of the state the tick itself does not read -/

/-- Two states that `R` relates differ in nothing the tick reads besides the instruction it runs, and the tick's own steps keep them
related. -/
structure Unseen (R : State → State → Prop) : Prop where
  mode : ∀ {s s'}, R s s' → s'.mode = s.mode
  fetchWord : ∀ {s s'}, R s s' → s'.fetchWord = s.fetchWord
  openTick : ∀ {s s'}, R s s' → R s.openTick s'.openTick
  timerPhase : ∀ {s s'}, R s s' → R s.timerPhase s'.timerPhase
  keyWaitPoll : ∀ {s s'}, R s s' → R s.keyWaitPoll s'.keyWaitPoll
  unsupported : ∀ {s s'} op, R s s' → R (s.unsupported op) (s'.unsupported op)

/-- A tick keeps two states related when the instruction it executes does. -/
theorem Unseen.step {R : State → State → Prop} (hR : Unseen R) {s s' t : State} (hs : R s s')
    (hexec : ∀ i, s.current = some i → R (afterExec i s.openTick) (afterExec i s'.openTick)) (h : step s = .next t) :
    ∃ t', step s' = .next t' ∧ R t t' := by
  cases hmode : s.mode with
  | running =>
    rw [step_running hmode, closeTick_next] at h
    rw [step_running ((hR.mode hs).trans hmode), closeTick_next, hR.fetchWord hs]
    have hword : R (afterWord s.fetchWord s.openTick) (afterWord s.fetchWord s'.openTick) := by
      cases hdecode : decodeWord s.fetchWord with
      | some i => simpa [afterWord, hdecode] using hexec i (State.current_eq_some_iff.2 ⟨hmode, hdecode⟩)
      | none => simpa only [afterWord, hdecode] using hR.unsupported _ (hR.openTick hs)
    refine ⟨_, rfl, ?_⟩
    rw [← Host.Outcome.next.inj h, hR.mode hword]
    split
    · exact hword
    · exact hR.timerPhase hword
  | keyWait =>
    rw [step_keyWait hmode] at h
    cases h
    exact ⟨_, step_keyWait ((hR.mode hs).trans hmode), hR.timerPhase (hR.keyWaitPoll (hR.openTick hs))⟩
  | halted =>
    rw [step_halted hmode] at h
    cases h
    exact ⟨_, step_halted ((hR.mode hs).trans hmode), hR.openTick hs⟩

/-- A block of register writes goes through a change that every register write goes through. -/
theorem State.setRegsFrom_comm {f : State → State} (hf : ∀ s x b, (f s).setReg x b = f (s.setReg x b)) (bs : List Byte)
    (k : Nat) (s : State) : (f s).setRegsFrom k bs = f (s.setRegsFrom k bs) := by
  induction bs generalizing k s with
  | nil => rfl
  | cons b bs ih => rw [setRegsFrom, hf, ih, setRegsFrom]

/-! ### The sound timer and the random source -/

/-- The state with other values of ST and of the random source: what waits on the RND input, and how many draws there have been
(log entry 3). -/
def State.mapUnread (sound : Byte → Byte) (source : List Byte → List Byte) (draws : Nat → Nat) (s : State) : State :=
  { s with st := sound s.st, rndIn := source s.rndIn, rndDraws := draws s.rndDraws }

section Unread

variable (sound : Byte → Byte) (source : List Byte → List Byte) (draws : Nat → Nat)

/-- An instruction other than `Fx18` and `Cxnn` neither reads nor writes ST and the random source. -/
theorem afterExec_mapUnread {i : Instr} (hsound : ∀ x, i ≠ .ldStVx x) (hrnd : ∀ x nn, i ≠ .rnd x nn) (s : State) :
    afterExec i (s.mapUnread sound source draws) = (afterExec i s).mapUnread sound source draws := by
  cases i with
  | ldStVx x => exact absurd rfl (hsound x)
  | rnd x nn => exact absurd rfl (hrnd x nn)
  | ret => rw [afterExec_ret, afterExec_ret, apply_ite (State.mapUnread sound source draws)]; rfl
  | call => rw [afterExec_call, afterExec_call, apply_ite (State.mapUnread sound source draws)]; rfl
  | ldVxK =>
    have hkeys : (s.mapUnread sound source draws).anyPressed = s.anyPressed := rfl
    rw [afterExec_ldVxK, afterExec_ldVxK, hkeys]
    cases s.anyPressed <;> rfl
  | loadRegs x =>
    exact congrArg (fun u => (u.setIndex (s.i.toNat + x.toNat + 1)).advance 2)
      (State.setRegsFrom_comm (f := State.mapUnread sound source draws) (fun _ _ _ => rfl) _ 0 s)
  | _ => rfl

/-- A poll neither reads nor writes them. -/
theorem keyWaitPoll_mapUnread (s : State) :
    (s.mapUnread sound source draws).keyWaitPoll = s.keyWaitPoll.mapUnread sound source draws := by
  have hkeys : (s.mapUnread sound source draws).anyPressed = s.anyPressed := rfl
  rw [State.keyWaitPoll, State.keyWaitPoll, hkeys]
  cases s.anyPressed <;> rfl

end Unread

/-- The states that differ at most in the random source, one of them holding that source. -/
theorem unseen_source (bytes : List Byte) (n : Nat) :
    Unseen fun s s' => s' = s.mapUnread id (fun _ => bytes) (fun _ => n) where
  mode := by rintro s _ rfl; rfl
  fetchWord := by rintro s _ rfl; rfl
  openTick := by rintro s _ rfl; rfl
  timerPhase := by rintro s _ rfl; rfl
  keyWaitPoll := by rintro s _ rfl; exact keyWaitPoll_mapUnread _ _ _ s
  unsupported := by rintro s _ op rfl; rfl

/-- The states that differ at most in ST. -/
theorem unseen_sound : Unseen fun s s' => ∃ c, s' = s.mapUnread (fun _ => c) id id where
  mode := by rintro s _ ⟨c, rfl⟩; rfl
  fetchWord := by rintro s _ ⟨c, rfl⟩; rfl
  openTick := by rintro s _ ⟨c, rfl⟩; exact ⟨c, rfl⟩
  timerPhase := by rintro s _ ⟨c, rfl⟩; exact ⟨countDown c, rfl⟩
  keyWaitPoll := by rintro s _ ⟨c, rfl⟩; exact ⟨c, keyWaitPoll_mapUnread _ _ _ s⟩
  unsupported := by rintro s _ op ⟨c, rfl⟩; exact ⟨c, rfl⟩

/-- Settles O29: no instruction but `Cxnn` reads the random source, and neither does the tick itself. -/
theorem randomSourceReachesOnlyCxnn : Obligations.RandomSourceReachesOnlyCxnn := by
  intro s t bytes n hrnd h
  have hexec (i : Instr) (hi : s.current = some i) : afterExec i (s.openTick.mapUnread id (fun _ => bytes) (fun _ => n)) =
      (afterExec i s.openTick).mapUnread id (fun _ => bytes) (fun _ => n) := by
    by_cases hsound : ∃ x, i = .ldStVx x
    · obtain ⟨x, rfl⟩ := hsound; rfl
    · exact afterExec_mapUnread _ _ _ (fun x hx => hsound ⟨x, hx⟩) (fun x nn hx => hrnd x nn (hx ▸ hi)) _
  obtain ⟨t', hstep, rfl⟩ := (unseen_source bytes n).step rfl hexec h
  exact hstep

/-- Settles O30: no instruction reads ST, `Fx18` writes it from a register, and the tick itself only counts it down. -/
theorem soundTimerIsReadByNoInstruction : Obligations.SoundTimerIsReadByNoInstruction := by
  intro s t b h
  have hexec (i : Instr) : ∃ c, afterExec i (s.openTick.mapUnread (fun _ => b) id id) =
      (afterExec i s.openTick).mapUnread (fun _ => c) id id := by
    cases i with
    | ldStVx x => exact ⟨s.reg x, rfl⟩
    | rnd => exact ⟨b, rfl⟩
    | _ => exact ⟨b, afterExec_mapUnread _ _ _ (by simp) (by simp) _⟩
  obtain ⟨t', hstep, c, rfl⟩ := unseen_sound.step ⟨b, rfl⟩ (fun i _ => hexec i) h
  exact ⟨c, hstep⟩

end Sys2Proof.Machine
end

section
/-! PROOFS of the families of spec/41_flow.md and spec/42_alu.md: jumps, the stack, logic, shifts and the random byte. -/

namespace Sys2Proof.Machine

/-! ### Jumps and the stack -/

/-- An address is below 4096, so the reduction of pc leaves it (spec/00_scope.md R15). -/
theorem ofNat_wrapAddr_toNat (nnn : Addr) : BitVec.ofNat 12 (wrapAddr nnn.toNat) = nnn := by
  rw [wrapAddr_of_lt nnn.isLt, BitVec.ofNat_toNat, BitVec.setWidth_eq]

/-- Settles O31: both instructions are a write of pc. -/
theorem jumpsSetThePc : Obligations.JumpsSetThePc := fun nnn s =>
  ⟨⟨_, exec_eq_next (.jp nnn) s, ofNat_wrapAddr_toNat nnn, SameBut_setPc s _⟩,
    ⟨_, exec_eq_next (.jpV0 nnn) s, toNat_pc_of_wrap _, SameBut_setPc s _⟩⟩

/-- Settles O32: the call is a push of pc and a write of pc. -/
theorem callPushesItsOwnAddress : Obligations.CallPushesItsOwnAddress := by
  intro nnn s hsp
  refine ⟨_, execCall_push hsp, ofNat_wrapAddr_toNat nnn, State.val_push_sp s (s.pc.setWidth 16) hsp, fun j => ?_,
    (SameBut_push s (s.pc.setWidth 16)).setPc _⟩
  rw [State.setPc_stackEntry, State.stackEntry_push s _ hsp, apply_ite BitVec.toNat, toNat_setWidth_pc]

/-- Settles O33: the return is a pop and a write of pc. -/
theorem returnGoesPastTheCall : Obligations.ReturnGoesPastTheCall := by
  intro s hsp
  have hpos : s.sp.val ≠ 0 := fun h => hsp (Fin.ext h)
  have hpopped : s.pop.sp.val + 1 = s.sp.val := by
    rw [State.val_pop_sp]
    omega
  refine ⟨_, execRet_pop hsp, hpopped, fun j hj => ?_, fun _ => rfl, (SameBut_pop s).setPc _⟩
  rw [State.toNat_setPc_pc, State.topEntry_eq s j hj]

/-- Settles O34: the entry the return pops is the one the call has pushed. -/
theorem returnUndoesCall : Obligations.ReturnUndoesCall := by
  intro nnn s t u hsp hcall ⟨hsame, hentries⟩
  obtain ⟨t', hcall', _, hpushed, hentry, _⟩ := callPushesItsOwnAddress nnn s hsp
  cases hcall.symm.trans hcall'
  have hroom : s.sp.val < 16 := by omega
  have hnonempty : u.sp ≠ 0 := by
    rw [hsame]
    intro h
    rw [h] at hpushed
    exact absurd hpushed (by simp)
  obtain ⟨w, hret, hpopped, hpc, _⟩ := returnGoesPastTheCall u hnonempty
  have hsp' : u.sp.val = s.sp.val + 1 := by rw [hsame, hpushed]
  refine ⟨w, hret, ?_, Fin.ext (by omega)⟩
  rw [PcPlus, hpc ⟨s.sp.val, hroom⟩ hsp'.symm, hentries, hentry, if_pos rfl]

/-- Settles O35: both branches are `raise Fatal(code)`. -/
theorem stackErrorsHaltTheCore : Obligations.StackErrorsHaltTheCore := fun s =>
  ⟨fun _ hsp => ⟨_, execCall_full hsp, rfl, rfl, rfl, rfl, rfl, SameBut_fatal s _⟩,
    fun hsp => ⟨_, execRet_empty hsp, rfl, rfl, rfl, rfl, rfl, SameBut_fatal s _⟩⟩

/-! ### Logic, shifts and the random byte -/

/-- Settles O40: each instruction writes one register, with the value the operator of its row gives. -/
theorem addImmediateAndLogicSetNoFlag : Obligations.AddImmediateAndLogicSetNoFlag := by
  intro x y nn s
  obtain ⟨t, hadd, hsum, haddFrame⟩ := exec_of_afterExec_eq_result (afterExec_addByte s x nn)
  obtain ⟨u, hor, hunion, horFrame⟩ := exec_of_afterExec_eq_result (afterExec_orReg s x y)
  obtain ⟨v, hand, hmeet, handFrame⟩ := exec_of_afterExec_eq_result (afterExec_andReg s x y)
  obtain ⟨w, hxor, hdiff, hxorFrame⟩ := exec_of_afterExec_eq_result (afterExec_xorReg s x y)
  refine ⟨⟨t, hadd, ?_, haddFrame⟩, ⟨u, hor, fun b => ?_, horFrame⟩, ⟨v, hand, fun b => ?_, handFrame⟩,
    ⟨w, hxor, fun b => ?_, hxorFrame⟩⟩
  · rw [hsum, BitVec.toNat_add]
  · rw [hunion, BitVec.getLsbD_or]
  · rw [hmeet, BitVec.getLsbD_and]
  · rw [hdiff, BitVec.getLsbD_xor]

theorem toNat_shiftedOutLow (a : Byte) : (shiftedOutLow a).toNat = a.toNat % 2 := by
  simp [shiftedOutLow, Nat.and_one_is_mod]

theorem toNat_shiftedOutHigh (a : Byte) : (shiftedOutHigh a).toNat = a.toNat / 128 := by
  simp [shiftedOutHigh, Nat.shiftRight_eq_div_pow]

/-- Settles O43: both instructions write a shifted register and then the bit shifted out. -/
theorem shiftsWriteResultThenTheBitShiftedOut : Obligations.ShiftsWriteResultThenTheBitShiftedOut := by
  intro x y s
  obtain ⟨t, hshr, hhalf, hlow, hshrFrame⟩ := exec_of_afterExec_eq_flaggedResult (afterExec_shr s x y)
  obtain ⟨u, hshl, hdouble, hhigh, hshlFrame⟩ := exec_of_afterExec_eq_flaggedResult (afterExec_shl s x y)
  refine ⟨⟨t, hshr, fun hx => ?_, ?_, hshrFrame⟩, ⟨u, hshl, fun hx => ?_, ?_, hshlFrame⟩⟩
  · rw [hhalf hx, BitVec.toNat_ushiftRight, Nat.shiftRight_eq_div_pow, Nat.pow_one]
  · rw [hlow, toNat_shiftedOutLow]
  · rw [hdouble hx, BitVec.toNat_shiftLeft, Nat.shiftLeft_eq, Nat.pow_one]
  · rw [hhigh, toNat_shiftedOutHigh]

/-- Settles O44: the instruction takes a byte from the source and writes it masked. -/
theorem randomByteIsMasked : Obligations.RandomByteIsMasked := by
  intro x nn s
  have hreg : (afterExec (.rnd x nn) s).reg x = s.rndByte &&& nn := by simp
  refine ⟨s.rndByte, _, exec_eq_next (.rnd x nn) s, hreg, fun b bs hrnd => ?_, fun hnn => ?_, toNat_pc_of_wrap _,
    fun r hr => by simp [hr], SameBut_afterExec _ s |>.mono (by simp)⟩
  · simp [State.rndByte, hrnd]
  · rw [hreg, hnn]
    exact BitVec.and_zero

end Sys2Proof.Machine
end

section
/-! PROOFS of the family of spec/43_index_memory.md: the sum of I, the block store and the block load. -/

namespace Sys2Proof.Machine

/-- Settles O46: the instruction is a write of I. -/
theorem addToIndexWrapsWithoutFlag : Obligations.AddToIndexWrapsWithoutFlag := fun x s =>
  exec_of_afterExec_eq_setIndex (afterExec_addI s x)

/-- Settles O48: the instruction stores the block of the registers at I. -/
theorem blockStoreWritesTheRegisters : Obligations.BlockStoreWritesTheRegisters := by
  intro x s hm
  have hx : x.toNat < 16 := x.isLt
  obtain ⟨t, hexec, hstored, hkept, hframe⟩ := exec_of_afterExec_eq_storeBytes (afterExec_storeRegs s x) hm
    (by rw [State.length_regsThrough]; omega)
  simp only [State.length_regsThrough, State.getElem_regsThrough, Nat.lt_succ_iff] at hstored hkept
  refine ⟨t, hexec, fun r hr => ?_, hkept, hframe⟩
  rw [hstored r.toNat hr, BitVec.ofNat_toNat, BitVec.setWidth_eq]

/-- Settles O49: the registers up to x get the bytes at I, and I moves past them. -/
theorem blockLoadReadsTheRegistersAndAdvancesTheIndex : Obligations.BlockLoadReadsTheRegistersAndAdvancesTheIndex :=
  fun x s => ⟨_, exec_eq_next (.loadRegs x) s, reg_afterExec_loadRegs s x, toNat_index_of_wrap _,
    PcPlus_afterExec_loadRegs s x, SameBut_afterExec (.loadRegs x) s⟩

/-- Settles O50: the store leaves I and the registers, so the load reads each register from where the store has put it. -/
theorem blockLoadReadsBackTheBlockStore : Obligations.BlockLoadReadsBackTheBlockStore := by
  intro x s t hm hstore
  obtain ⟨t', hstore', hstored, _, _, hframe⟩ := blockStoreWritesTheRegisters x s hm
  cases hstore.symm.trans hstore'
  have hi : t.i = s.i := hframe .index (by simp)
  have hregs : ∀ r, t.reg r = s.reg r := hframe .regs (by simp)
  obtain ⟨u, hload, hloaded, hindex, _⟩ := blockLoadReadsTheRegistersAndAdvancesTheIndex x t
  refine ⟨u, hload, fun r => ?_, by rw [hindex, hi]⟩
  rw [hloaded]
  split
  · rw [State.indexAddr, hi]
    exact hstored r ‹_›
  · exact hregs r

end Sys2Proof.Machine
end

section
/-! PROOFS of the family of spec/44_display.md: the clear, the double draw and `Dxyn`. -/

namespace Sys2Proof.Machine

/-- Settles O51: the instruction replaces the buffer by the blank one. -/
theorem clearBlanksTheDisplay : Obligations.ClearBlanksTheDisplay := fun s =>
  ⟨_, exec_eq_next .cls s, Display.cell_blank, rfl, toNat_pc_of_wrap _, SameBut_afterExec .cls s⟩

/-- Settles O53: each draw is an XOR with the same bits, so the second undoes the first. -/
theorem drawingTwiceRestoresTheDisplay : Obligations.DrawingTwiceRestoresTheDisplay := by
  intro fb x0 y0 rows hlen once twice
  obtain ⟨honce, _⟩ := drawSprite_drawn fb x0 y0 (rows := rows) (by omega)
  obtain ⟨htwice, hcol⟩ := drawSprite_drawn once.fb x0 y0 (rows := rows) (by omega)
  constructor
  · refine Display.ext_cell fun cx cy => ?_
    rw [htwice, honce, Bool.xor_assoc, Bool.xor_self, Bool.xor_false]
  · simpa using hcol

/-- The rows of the sprite at I are the bytes at its I-relative addresses (R159, spec/43_index_memory.md R146). -/
theorem indexBytes_eq_map_readByte (s : State) (n : Nat) :
    s.indexBytes n = (List.range n).map fun r => s.readByte (s.indexAddr r) :=
  List.map_congr_left fun r _ => s.readByte_indexAddr_add s r

theorem flagByte_le_one (b : Bool) : flagByte b ≤ 1 := by cases b <;> decide

theorem flagByte_eq_one {b : Bool} : flagByte b = 1 ↔ b = true := by cases b <;> decide

/-- Settles O54: the new buffer and VF are those of the blit unit on the sprite at I. -/
theorem drawPutsTheSpriteAtTheOrigin : Obligations.DrawPutsTheSpriteAtTheOrigin := by
  intro x y n s rows
  have hn : n.toNat < 16 := n.isLt
  have hrows : s.indexBytes n.toNat = rows := indexBytes_eq_map_readByte s n.toNat
  have hlen : rows.length ≤ 15 := by
    rw [← hrows, State.length_indexBytes]
    omega
  obtain ⟨hcell, hcol⟩ := blitXorsEachCellAndDetectsCollision s.fb (s.reg x) (s.reg y) rows hlen
  rw [← hrows] at hcell hcol
  have hvF : (afterExec (.drw x y n) s).reg vF = flagByte (s.drawing x y n).col := by simp
  refine ⟨_, exec_eq_next (.drw x y n) s, hrows ▸ hcell, ?_, ?_, fun hn0 => ?_, rfl, toNat_pc_of_wrap _,
    fun r hr => by simp [hr], (SameBut_afterExec _ s).mono (by simp)⟩
  · rw [hvF]
    exact flagByte_le_one _
  · rw [hvF, flagByte_eq_one]
    exact hcol
  · subst hn0
    exact ⟨hvF, fun _ _ => rfl⟩

end Sys2Proof.Machine
end

section
/-! PROOFS of the family of spec/45_keys_timers.md: key skips and `Fx0A`. -/

namespace Sys2Proof.Machine

/-- Settles O56: both instructions are skips, on the key that `V[x]` names. -/
theorem keySkipsTestTheKey : Obligations.KeySkipsTestTheKey := by
  intro x s
  have hswap (b : Bool) : (if b = true then 2 else 4) = if (!b) = true then 4 else 2 := by cases b <;> rfl
  refine ⟨s.isPressed (s.reg x), fun h => dif_pos h, fun h => dif_neg (Nat.not_lt.2 h),
    exec_of_afterExec_eq_skipIf (afterExec_skp s x) Iff.rfl, ?_⟩
  rw [hswap]
  exact exec_of_afterExec_eq_skipIf (afterExec_sknp s x) Iff.rfl

/-- Settles O58, by the key lookup. -/
theorem keyWaitInstructionStoresOrWaits : Obligations.KeyWaitInstructionStoresOrWaits := by
  intro x s
  constructor
  · intro k hdown hlower
    have hkey : s.anyPressed = some k := State.anyPressed_eq_some_iff.2 ⟨hdown, hlower⟩
    obtain ⟨t, hexec, hreg, hframe⟩ := exec_of_afterExec_eq_result (i := .ldVxK x) (s := s) (x := x) (b := keyByte k)
      (by rw [afterExec_ldVxK, hkey]; rfl)
    exact ⟨t, hexec, by rw [hreg, toNat_keyByte], hframe⟩
  · intro hnone
    have hkey : s.anyPressed = none := State.anyPressed_eq_none_iff.2 hnone
    exact ⟨_, execLdVxK_none hkey, rfl, rfl, rfl, rfl, SameBut_enterKeyWait s x⟩

end Sys2Proof.Machine
end

section
/-! PROOFS of memory and of the host's actions: stores, the placed word, RESET, keys, LOAD and the random input. -/

namespace Sys2Proof.Machine

/-- Settles O6: one byte is written, and memory's form is kept by every write. -/
theorem storedByteReadsBackAndNothingElse : Obligations.StoredByteReadsBackAndNothingElse := fun _ a b v hm =>
  ⟨Memory.writeBytes_wf hm a [v], Memory.read_write hm a v b⟩

/-- A word stored at pc is the word at pc. -/
theorem fetchWord_storeBytes_pc {s : State} (hm : MemoryCanonical s) (op : Opcode) :
    (s.storeBytes s.pc.toNat (bytesOfWord op)).fetchWord = op := by
  have hread (k : Nat) (hk : k < (bytesOfWord op).length) :
      (s.storeBytes s.pc.toNat (bytesOfWord op)).readByte (s.pc.toNat + k) = (bytesOfWord op)[k] :=
    State.readByte_storeBytes_get hm _ _ (by simp [bytesOfWord]) k hk
  have hhigh := hread 0 (by simp [bytesOfWord])
  have hlow := hread 1 (by simp [bytesOfWord])
  rw [Nat.add_zero] at hhigh
  rw [State.fetchWord, State.storeBytes_pc, hhigh, hlow]
  exact wordOfBytes_bytesOfWord op

/-- Settles O7: the word is stored at pc, and besides that only MODE is written. -/
theorem placedWordIsTheWordFetched : Obligations.PlacedWordIsTheWordFetched := by
  intro s w hm
  have hfetch := fetchWord_storeBytes_pc hm (tableWord 16 w)
  refine ⟨hfetch, hfetch, rfl, (SameBut_storeBytes s _ _).append (SameBut_resume _), rfl, fun a hpc hnext => ?_⟩
  refine State.readByte_storeBytes_of_ne hm _ _ a fun k hk => ?_
  have hk2 : k < 2 := hk
  interval_cases k
  · rwa [Nat.add_zero, wrapAddr_of_lt s.pc.isLt]
  · exact hnext

/-! ### RESET -/

/-- Memory after RESET holds FONT_ROM from 0x050 on (spec/20_memory.md R56). -/
theorem resetByte_font (rom : FontRom) (d : Fin 80) : resetByte rom (wrapAddr (0x050 + d.val)) = rom[d.val] := by
  have hlt : 0x050 + d.val < 4096 := by omega
  rw [wrapAddr_of_lt hlt, resetByte, dif_pos (by simp only [fontBase]; omega)]
  simp [fontBase]

/-- Outside the font memory after RESET is zero (spec/92_eei_decisions.md D5). -/
theorem resetByte_outside (rom : FontRom) {a : Nat} (ha : a < 4096) (hout : a < 0x050 ∨ 0x0A0 ≤ a) :
    resetByte rom (wrapAddr a) = 0 := by
  rw [wrapAddr_of_lt ha, resetByte, dif_neg (by simp only [fontBase]; omega)]

theorem hasResetValues_resetWith (rom : FontRom) : HasResetValues (State.resetWith rom) := by
  refine ⟨Display.cell_blank, fun r => ?_, rfl, rfl, rfl, fun j => ?_, rfl, rfl, fun k => ?_, rfl, rfl, rfl, rfl, rfl, rfl, rfl,
    rfl, resetByte_font rom, fun a => resetByte_outside rom⟩
  · simp [State.reg, State.resetWith]
  · simp [State.stackEntry, State.resetWith]
  · simp [State.key, State.resetWith]

/-- Settles O8: RESET is the reset state of the machine's own FONT_ROM, with the random source left as it was. -/
theorem resetGivesEveryElementItsValue : Obligations.ResetGivesEveryElementItsValue :=
  ⟨rfl, fun rom => ⟨hasResetValues_resetWith rom, rfl⟩,
    fun s => ⟨hostReset s, rfl, hasResetValues_resetWith s.fontRom, rfl⟩⟩

/-! ### Keys, LOAD and the random input -/

/-- KEY_PRESS and KEY_RELEASE are one action on one key. -/
theorem hostStep_key (pressed : Bool) (k : Nat) (s : State) :
    hostStep (if pressed then .keyPress k else .keyRelease k) s = hostKey k pressed s := by
  cases pressed <;> rfl

/-- Settles O9: a key action is a write of one key, and is refused where there is no such key. -/
theorem keyActionsChangeOneKey : Obligations.KeyActionsChangeOneKey := by
  intro s k pressed a
  have hstep : hostStep a s = hostKey k pressed s := hostStep_key pressed k s
  refine ⟨fun hk => ⟨_, hstep.trans (hostKey_of_lt hk pressed s), by simp, fun j hj => ?_, rfl, SameBut_setKey s _ _⟩,
    fun hk => hstep.trans (hostKey_of_ge hk pressed s)⟩
  rw [State.key_setKey, if_neg fun h => hj (congrArg Fin.val h)]

/-- Settles O10: a LOAD is a store of one byte, and is refused after the first tick and past the end of memory. -/
theorem loadWritesTheImageBeforeTheFirstTick : Obligations.LoadWritesTheImageBeforeTheFirstTick := by
  intro s offset b hm
  refine ⟨fun hstarted hoffset => ?_, fun hstarted => hostLoad_after_start hstarted offset b,
    fun hstarted hoffset => hostLoad_of_ge hstarted hoffset b⟩
  have hread (a : Nat) := (storedByteReadsBackAndNothingElse s (0x200 + offset) a b hm).2
  refine ⟨_, hostLoad_of_lt hstarted hoffset b, (hread _).trans (if_pos rfl), fun a ha => (hread a).trans (if_neg ?_), rfl,
    SameBut_storeBytes s _ _⟩
  rwa [Nat.mod_eq_of_lt (by omega : 0x200 + offset < 4096)]

theorem SameBut_hostRnd (s : State) (b : Byte) : SameBut [.random] s (hostRnd b s) := fun p hp => by
  cases p with
  | random => exact absurd (List.mem_singleton_self _) hp
  | regs | keys | memory => exact fun _ => rfl
  | display => exact fun _ _ => rfl
  | stack => exact ⟨rfl, fun _ => rfl⟩
  | _ => exact rfl

/-- Settles O59: the action writes the queue and nothing else. -/
theorem randomInputQueuesOneByte : Obligations.RandomInputQueuesOneByte := fun s b =>
  ⟨hostRnd b s, rfl, rfl, rfl, rfl, SameBut_hostRnd s b⟩

end Sys2Proof.Machine
end
